-- ==== Sys2Proof/Word.lean ====
section
/-!
DEFINITION. The widths of the machine's values (10_state.md R20, R22; 30_encoding.md R71). Every value is unsigned
(00_scope.md R10): no signed reading of any of these types stands anywhere in the model.
-/

namespace Sys2Proof

/-- A general register, a timer, a byte of memory. -/
abbrev Byte := BitVec 8

/-- An instruction word, `pc`, `I`, an entry of the call stack. -/
abbrev Word := BitVec 16

/-- A register number or a key number: 4 bits, all 16 values legal (30_encoding.md R73). -/
abbrev Nibble := BitVec 4

/-- The field NNN of an instruction word (30_encoding.md R71). -/
abbrev Addr := BitVec 12

end Sys2Proof
end

