-- ==== Sys2Proof/Syntax.lean ====
section
/-!
DEFINITION. The instructions: one constructor per row of 30_encoding.md R74, in the table's order. Operands are typed by the
width of their field (R71, R73), so a register number, an immediate or an address out of its range cannot be written down.
-/

namespace Sys2Proof

inductive Instr where
  /-- 00E0, 44_display.md R131. -/
  | cls
  /-- 00EE, 41_control_transfer.md R101. -/
  | ret
  /-- 1nnn, 41_control_transfer.md R102. -/
  | jp (nnn : Addr)
  /-- 2nnn, 41_control_transfer.md R103. -/
  | call (nnn : Addr)
  /-- 3xkk, 41_control_transfer.md R104. -/
  | seVxKk (x : Nibble) (kk : Byte)
  /-- 4xkk, 41_control_transfer.md R105. -/
  | sneVxKk (x : Nibble) (kk : Byte)
  /-- 6xkk, 42_alu.md R110. -/
  | ldVxKk (x : Nibble) (kk : Byte)
  /-- 7xkk, 42_alu.md R111. -/
  | addVxKk (x : Nibble) (kk : Byte)
  /-- 8xy0, 42_alu.md R112. -/
  | ldVxVy (x y : Nibble)
  /-- 8xy2, 42_alu.md R113. -/
  | andVxVy (x y : Nibble)
  /-- 8xy4, 42_alu.md R114. -/
  | addVxVy (x y : Nibble)
  /-- 8xy5, 42_alu.md R115. -/
  | subVxVy (x y : Nibble)
  /-- 9xy0, 41_control_transfer.md R106. -/
  | sneVxVy (x y : Nibble)
  /-- Annn, 43_index_memory.md R120. -/
  | ldI (nnn : Addr)
  /-- Cxkk, 42_alu.md R116. -/
  | rnd (x : Nibble) (kk : Byte)
  /-- Dxyn, 44_display.md R132. -/
  | drw (x y n : Nibble)
  /-- Ex9E, 45_keypad_timers.md R140. -/
  | skp (x : Nibble)
  /-- ExA1, 45_keypad_timers.md R141. -/
  | sknp (x : Nibble)
  /-- Fx07, 45_keypad_timers.md R142. -/
  | ldVxDt (x : Nibble)
  /-- Fx0A, 45_keypad_timers.md R143. -/
  | ldVxK (x : Nibble)
  /-- Fx15, 45_keypad_timers.md R144. -/
  | ldDtVx (x : Nibble)
  /-- Fx18, 45_keypad_timers.md R145. -/
  | ldStVx (x : Nibble)
  /-- Fx1E, 43_index_memory.md R121. -/
  | addIVx (x : Nibble)
  /-- Fx29, 43_index_memory.md R122. -/
  | ldFVx (x : Nibble)
  /-- Fx33, 43_index_memory.md R123. -/
  | ldBVx (x : Nibble)
  /-- Fx55, 43_index_memory.md R126. -/
  | ldMemVx (x : Nibble)
  /-- Fx65, 43_index_memory.md R127. -/
  | ldVxMem (x : Nibble)
  deriving DecidableEq, Repr

end Sys2Proof
end

