-- ==== Sys2Proof/WellFormed.lean ====
section
/-!
DEFINITION. Which instruction words are well formed: the masks and patterns of 30_encoding.md R74, a reading of the opcode
table of its own beside the decoder's (R75), so that the two can be held against each other.

An `Instr` is never ill formed: each field has the type of its own width, and every value of a field is legal (R73). What can
be ill formed is a word, and `legalWord` is the check of it. The rows stand by family.
-/

namespace Sys2Proof

/-- A row of the opcode table: a word selects it exactly when `op & mask = pattern` (R74). -/
structure OpcodeRow where
  mnemonic : String
  pattern : Word
  mask : Word
  deriving DecidableEq, Repr

def OpcodeRow.selects (r : OpcodeRow) (op : Word) : Bool := op &&& r.mask = r.pattern

/-- The rows of 41_control_transfer.md. -/
def controlRows : List OpcodeRow :=
  [⟨"RET", 0x00EE, 0xFFFF⟩,
   ⟨"JP_nnn", 0x1000, 0xF000⟩,
   ⟨"CALL_nnn", 0x2000, 0xF000⟩,
   ⟨"SE_Vx_kk", 0x3000, 0xF000⟩,
   ⟨"SNE_Vx_kk", 0x4000, 0xF000⟩,
   ⟨"SNE_Vx_Vy", 0x9000, 0xF00F⟩]

/-- The rows of 42_alu.md. -/
def aluRows : List OpcodeRow :=
  [⟨"LD_Vx_kk", 0x6000, 0xF000⟩,
   ⟨"ADD_Vx_kk", 0x7000, 0xF000⟩,
   ⟨"LD_Vx_Vy", 0x8000, 0xF00F⟩,
   ⟨"AND_Vx_Vy", 0x8002, 0xF00F⟩,
   ⟨"ADD_Vx_Vy", 0x8004, 0xF00F⟩,
   ⟨"SUB_Vx_Vy", 0x8005, 0xF00F⟩,
   ⟨"RND_Vx_kk", 0xC000, 0xF000⟩]

/-- The rows of 43_index_memory.md. -/
def indexRows : List OpcodeRow :=
  [⟨"LD_I_nnn", 0xA000, 0xF000⟩,
   ⟨"ADD_I_Vx", 0xF01E, 0xF0FF⟩,
   ⟨"LD_F_Vx", 0xF029, 0xF0FF⟩,
   ⟨"LD_B_Vx", 0xF033, 0xF0FF⟩,
   ⟨"LD__I__Vx", 0xF055, 0xF0FF⟩,
   ⟨"LD_Vx__I", 0xF065, 0xF0FF⟩]

/-- The rows of 44_display.md. -/
def displayRows : List OpcodeRow :=
  [⟨"CLS", 0x00E0, 0xFFFF⟩,
   ⟨"DRW_Vx_Vy_n", 0xD000, 0xF000⟩]

/-- The rows of 45_keypad_timers.md. -/
def keypadRows : List OpcodeRow :=
  [⟨"SKP_Vx", 0xE09E, 0xF0FF⟩,
   ⟨"SKNP_Vx", 0xE0A1, 0xF0FF⟩,
   ⟨"LD_Vx_DT", 0xF007, 0xF0FF⟩,
   ⟨"LD_Vx_K", 0xF00A, 0xF0FF⟩,
   ⟨"LD_DT_Vx", 0xF015, 0xF0FF⟩,
   ⟨"LD_ST_Vx", 0xF018, 0xF0FF⟩]

/-- All 27 rows (R74). -/
def opcodeTable : List OpcodeRow :=
  controlRows ++ aluRows ++ indexRows ++ displayRows ++ keypadRows

/-- The words the table gives a meaning; every other word is illegal (R76). -/
def legalWord (op : Word) : Bool := opcodeTable.any fun r => r.selects op

/-- The row of an instruction. -/
def Instr.row : Instr → OpcodeRow
  | .cls => ⟨"CLS", 0x00E0, 0xFFFF⟩
  | .ret => ⟨"RET", 0x00EE, 0xFFFF⟩
  | .jp _ => ⟨"JP_nnn", 0x1000, 0xF000⟩
  | .call _ => ⟨"CALL_nnn", 0x2000, 0xF000⟩
  | .seVxKk _ _ => ⟨"SE_Vx_kk", 0x3000, 0xF000⟩
  | .sneVxKk _ _ => ⟨"SNE_Vx_kk", 0x4000, 0xF000⟩
  | .ldVxKk _ _ => ⟨"LD_Vx_kk", 0x6000, 0xF000⟩
  | .addVxKk _ _ => ⟨"ADD_Vx_kk", 0x7000, 0xF000⟩
  | .ldVxVy _ _ => ⟨"LD_Vx_Vy", 0x8000, 0xF00F⟩
  | .andVxVy _ _ => ⟨"AND_Vx_Vy", 0x8002, 0xF00F⟩
  | .addVxVy _ _ => ⟨"ADD_Vx_Vy", 0x8004, 0xF00F⟩
  | .subVxVy _ _ => ⟨"SUB_Vx_Vy", 0x8005, 0xF00F⟩
  | .sneVxVy _ _ => ⟨"SNE_Vx_Vy", 0x9000, 0xF00F⟩
  | .ldI _ => ⟨"LD_I_nnn", 0xA000, 0xF000⟩
  | .rnd _ _ => ⟨"RND_Vx_kk", 0xC000, 0xF000⟩
  | .drw _ _ _ => ⟨"DRW_Vx_Vy_n", 0xD000, 0xF000⟩
  | .skp _ => ⟨"SKP_Vx", 0xE09E, 0xF0FF⟩
  | .sknp _ => ⟨"SKNP_Vx", 0xE0A1, 0xF0FF⟩
  | .ldVxDt _ => ⟨"LD_Vx_DT", 0xF007, 0xF0FF⟩
  | .ldVxK _ => ⟨"LD_Vx_K", 0xF00A, 0xF0FF⟩
  | .ldDtVx _ => ⟨"LD_DT_Vx", 0xF015, 0xF0FF⟩
  | .ldStVx _ => ⟨"LD_ST_Vx", 0xF018, 0xF0FF⟩
  | .addIVx _ => ⟨"ADD_I_Vx", 0xF01E, 0xF0FF⟩
  | .ldFVx _ => ⟨"LD_F_Vx", 0xF029, 0xF0FF⟩
  | .ldBVx _ => ⟨"LD_B_Vx", 0xF033, 0xF0FF⟩
  | .ldMemVx _ => ⟨"LD__I__Vx", 0xF055, 0xF0FF⟩
  | .ldVxMem _ => ⟨"LD_Vx__I", 0xF065, 0xF0FF⟩

end Sys2Proof
end

