-- ==== Sys2Proof/Decode.lean ====
section
/-!
DEFINITION. The decoder (30_encoding.md R70 to R76), total on any bytes and rejecting by name, and after it the encoder,
written from R71, R72 and R81. Instruction bytes are big-endian: the byte at the lower address is the high byte (20_memory.md R51).
-/

namespace Sys2Proof

/-- Why bytes are no instruction. -/
inductive Reject where
  /-- The word matches no row of the table (R76). -/
  | unknownOpcode (op : Word)
  /-- Fewer than the two bytes every instruction has (R70). -/
  | truncated
  deriving DecidableEq, Repr

/-! The fields of an instruction word (R71). -/

def fieldFam (op : Word) : Nibble := op.extractLsb' 12 4
def fieldX (op : Word) : Nibble := op.extractLsb' 8 4
def fieldY (op : Word) : Nibble := op.extractLsb' 4 4
def fieldN (op : Word) : Nibble := op.extractLsb' 0 4
def fieldKK (op : Word) : Byte := op.extractLsb' 0 8
def fieldNNN (op : Word) : Addr := op.extractLsb' 0 12

/-- Family 0x8, by its low nibble. -/
def decodeXY (op : Word) : Except Reject Instr :=
  match fieldN op with
  | 0x0#4 => .ok (.ldVxVy (fieldX op) (fieldY op))
  | 0x2#4 => .ok (.andVxVy (fieldX op) (fieldY op))
  | 0x4#4 => .ok (.addVxVy (fieldX op) (fieldY op))
  | 0x5#4 => .ok (.subVxVy (fieldX op) (fieldY op))
  | _ => .error (.unknownOpcode op)

/-- Family 0xF, by its low byte. -/
def decodeX (op : Word) : Except Reject Instr :=
  match fieldKK op with
  | 0x07#8 => .ok (.ldVxDt (fieldX op))
  | 0x0A#8 => .ok (.ldVxK (fieldX op))
  | 0x15#8 => .ok (.ldDtVx (fieldX op))
  | 0x18#8 => .ok (.ldStVx (fieldX op))
  | 0x1E#8 => .ok (.addIVx (fieldX op))
  | 0x29#8 => .ok (.ldFVx (fieldX op))
  | 0x33#8 => .ok (.ldBVx (fieldX op))
  | 0x55#8 => .ok (.ldMemVx (fieldX op))
  | 0x65#8 => .ok (.ldVxMem (fieldX op))
  | _ => .error (.unknownOpcode op)

/-- The decoder of R75. The last arm is family 0xF, the one value of the top nibble left. -/
def decode (op : Word) : Except Reject Instr :=
  match fieldFam op with
  | 0x0#4 =>
    if op = 0x00E0#16 then .ok .cls
    else if op = 0x00EE#16 then .ok .ret
    else .error (.unknownOpcode op)
  | 0x1#4 => .ok (.jp (fieldNNN op))
  | 0x2#4 => .ok (.call (fieldNNN op))
  | 0x3#4 => .ok (.seVxKk (fieldX op) (fieldKK op))
  | 0x4#4 => .ok (.sneVxKk (fieldX op) (fieldKK op))
  | 0x5#4 => .error (.unknownOpcode op)
  | 0x6#4 => .ok (.ldVxKk (fieldX op) (fieldKK op))
  | 0x7#4 => .ok (.addVxKk (fieldX op) (fieldKK op))
  | 0x8#4 => decodeXY op
  | 0x9#4 => if fieldN op = 0x0#4 then .ok (.sneVxVy (fieldX op) (fieldY op)) else .error (.unknownOpcode op)
  | 0xA#4 => .ok (.ldI (fieldNNN op))
  | 0xB#4 => .error (.unknownOpcode op)
  | 0xC#4 => .ok (.rnd (fieldX op) (fieldKK op))
  | 0xD#4 => .ok (.drw (fieldX op) (fieldY op) (fieldN op))
  | 0xE#4 =>
    if fieldKK op = 0x9E#8 then .ok (.skp (fieldX op))
    else if fieldKK op = 0xA1#8 then .ok (.sknp (fieldX op))
    else .error (.unknownOpcode op)
  | _ => decodeX op

/-- The big-endian word of two bytes: `{hi, lo}` (20_memory.md R51). -/
def wordOfBytes (hi lo : Byte) : Word := hi ++ lo

/-- The instruction at the front of a byte string, and what follows it. -/
def decodeBytes : List Byte → Except Reject (Instr × List Byte)
  | hi :: lo :: rest =>
    match decode (wordOfBytes hi lo) with
    | .ok i => .ok (i, rest)
    | .error r => .error r
  | _ => .error .truncated

/-! The encoder: the formats of R72, then each row of R74. -/

def formatNNN (fam : Nibble) (nnn : Addr) : Word := fam ++ nnn
def formatXKK (fam x : Nibble) (kk : Byte) : Word := fam ++ x ++ kk
def formatXYN (fam x y n : Nibble) : Word := fam ++ x ++ y ++ n

/-- The word of an instruction (R72, R74, R81). Format XY is XYN with its low nibble fixed, format X is XKK with its low
byte fixed. -/
def encode : Instr → Word
  | .cls => 0x00E0
  | .ret => 0x00EE
  | .jp nnn => formatNNN 0x1 nnn
  | .call nnn => formatNNN 0x2 nnn
  | .seVxKk x kk => formatXKK 0x3 x kk
  | .sneVxKk x kk => formatXKK 0x4 x kk
  | .ldVxKk x kk => formatXKK 0x6 x kk
  | .addVxKk x kk => formatXKK 0x7 x kk
  | .ldVxVy x y => formatXYN 0x8 x y 0x0
  | .andVxVy x y => formatXYN 0x8 x y 0x2
  | .addVxVy x y => formatXYN 0x8 x y 0x4
  | .subVxVy x y => formatXYN 0x8 x y 0x5
  | .sneVxVy x y => formatXYN 0x9 x y 0x0
  | .ldI nnn => formatNNN 0xA nnn
  | .rnd x kk => formatXKK 0xC x kk
  | .drw x y n => formatXYN 0xD x y n
  | .skp x => formatXKK 0xE x 0x9E
  | .sknp x => formatXKK 0xE x 0xA1
  | .ldVxDt x => formatXKK 0xF x 0x07
  | .ldVxK x => formatXKK 0xF x 0x0A
  | .ldDtVx x => formatXKK 0xF x 0x15
  | .ldStVx x => formatXKK 0xF x 0x18
  | .addIVx x => formatXKK 0xF x 0x1E
  | .ldFVx x => formatXKK 0xF x 0x29
  | .ldBVx x => formatXKK 0xF x 0x33
  | .ldMemVx x => formatXKK 0xF x 0x55
  | .ldVxMem x => formatXKK 0xF x 0x65

/-- The high byte of a word, stored at the instruction's address (R81). -/
def highByte (w : Word) : Byte := w.extractLsb' 8 8

/-- The low byte of a word, stored at the next address (R81). -/
def lowByte (w : Word) : Byte := w.extractLsb' 0 8

/-- The two bytes of an instruction as memory holds them (R81). -/
def encodeBytes (i : Instr) : List Byte := [highByte (encode i), lowByte (encode i)]

/-- The bits of a table row as one instruction word: bits at and above `nbits` are 0. -/
def tableWord (nbits w : Nat) : Word := BitVec.ofNat 16 (w % 2 ^ nbits)

/-- What the decoder reads from an instruction whose bits are `w`, laid out in bytes as the hardware stores them. -/
def decodeTableWord (nbits w : Nat) : Option Instr :=
  match decodeBytes [highByte (tableWord nbits w), lowByte (tableWord nbits w)] with
  | .ok (i, _) => some i
  | .error _ => none

end Sys2Proof
end

