-- ==== Sys2Proof/Config.lean ====
section
/-!
DEFINITION. The parameters of 00_scope.md R9 that the machine's definitions name, and the model's one free value.
The parameters that are a choice between two behaviours (LS_ADVANCES_I = false, DRW_WRAP = both axes, SPRITE_MSB_LEFT = true,
STACK_BOUNDS = fatal) are decided by the spec and stand in the meanings themselves: log entries 6 to 10.
The font's bytes (FONT_ROM) stand in Machine/Ops.lean.
-/

namespace Sys2Proof

/-- MEM_SIZE: bytes of memory, addresses 0x000 to 0xFFF (R9, R50). -/
abbrev Config.memSize : Nat := 4096

/-- The highest address of memory (R50). -/
abbrev Config.topAddr : Nat := 0xFFF

/-- PROG_BASE: the first byte LOAD writes, and `pc` after reset (R9). -/
abbrev Config.progBase : Nat := 0x200

/-- The largest image LOAD takes: MEM_SIZE - PROG_BASE bytes (R59, R182). -/
abbrev Config.maxImage : Nat := 3584

/-- FB_W: the width of the framebuffer in pixels (R9, R130). -/
abbrev Config.fbWidth : Nat := 64

/-- FB_H: the height of the framebuffer in pixels (R9, R130). -/
abbrev Config.fbHeight : Nat := 32

/-- GLYPH_BYTES: `LD F,Vx` multiplies by it (R9, R122). -/
abbrev Config.glyphBytes : Nat := 5

/-- FREE VALUE: the argument `rnd` of a STEP that the model's step issues of itself, no command being pending, when RND has
executed n times before. The environment would supply it and no rule constrains it (42_alu.md R116, 92_eei_decisions.md D13). No
body: nothing can prove a value of it. Log entry 2. -/
opaque Config.rndDraw : Nat → Byte

end Sys2Proof
end

