-- ==== Sys2Proof/Machine/State.lean ====
section
/-!
DEFINITION. The state of the machine as plain data: every item of 10_state.md R20 under its own name, and after them the
model's own four fields. State.reset is 10_state.md R40.
-/

namespace Sys2Proof.Machine

/-- Memory: the bytes that differ from what an unlisted address reads as (the reset contents), by rising address. The form
is `Memory.wf` of Machine/Ops.lean; log entry 5. -/
abbrev Memory := List Host.Cell

/-- The framebuffer: 32 rows from the top, each one bit per pixel, bit `col` of row `row` the pixel (col, row), which the
spec writes fb[row*64 + col] (R37, R130). Log entry 14. -/
abbrev Frame := Vector (BitVec 64) 32

/-- The commands of the environment, each with its arguments (00_scope.md R6). -/
inductive Command where
  /-- 70_reset_and_hazards.md R180. -/
  | reset
  /-- 70_reset_and_hazards.md R182. -/
  | load (image : List Byte)
  /-- 40_step_cycle.md R90. The byte `rnd` is the environment's, any value, and only RND reads it (42_alu.md R116). -/
  | step (rnd : Byte)
  /-- 60_exceptions.md R165. -/
  | tick
  /-- 60_exceptions.md R167. -/
  | setKey (k : Nibble) (pressed : Bool)
  /-- 60_exceptions.md R168. -/
  | deliverKey (v : Nibble)
  /-- 60_exceptions.md R170. -/
  | clearDirty
  deriving DecidableEq, Repr

structure State where
  /-- 4096 bytes, shared by code and data (R50). -/
  mem : Memory
  /-- The 16 general registers; x[15] is VF (R22, R23). -/
  x : Vector Byte 16
  /-- The index register (R28). -/
  I : Word
  /-- The address of the next instruction (R25). -/
  pc : Word
  /-- The 16 return addresses (R35). -/
  stack : Vector Word 16
  /-- How many entries of `stack` are in use, 0 to 16 (R30). -/
  sp : Fin 17
  /-- The framebuffer (R37). -/
  fb : Frame
  /-- The delay timer (R29). -/
  dt : Byte
  /-- The sound timer (R29). -/
  st : Byte
  /-- The key table, true = pressed (R36). -/
  keys : Vector Bool 16
  /-- The framebuffer changed (R31). -/
  dirty : Bool
  /-- The key-wait latch (R32). -/
  awaitingKey : Bool
  /-- The register a delivered key goes to (R32). -/
  keyDest : Nibble
  /-- A fault has stopped execution (R34). -/
  halted : Bool
  /-- The code of the fault, 0 for none (R34, 60_exceptions.md R151). -/
  faultCause : BitVec 3
  /-- The instruction word that faulted (R34). -/
  faultOpcode : Word
  /-- The MODEL's own: LOAD is still defined, no STEP having executed since RESET (70_reset_and_hazards.md R184, log entry 3). -/
  loadOpen : Bool
  /-- The MODEL's own: the argument `rnd` of the STEP under execution, 0 between two commands (10_state.md R21, log entry 2). -/
  rnd : Byte
  /-- The MODEL's own: how many times RND has executed (log entry 2). -/
  draws : Nat
  /-- The MODEL's own: the commands the environment issues next, oldest first (00_scope.md R6, log entry 1). -/
  pending : List Command
  deriving DecidableEq, Repr

/-- The fault causes of 60_exceptions.md R151. Raising one is a NEXT state (R154), not a fault of the model. -/
inductive FaultCause where
  | unknownOpcode
  | stackOverflow
  | stackUnderflow
  | fetchBounds
  | memoryBounds
  | keyIndex
  deriving DecidableEq, Repr

/-- Reasons a step stops with a fault of the model: none. Every fault of this hardware is an entry the spec describes
(60_exceptions.md R154) and so a next state with `halted` set, and a halted machine's STEP is a no-op (R155). Log entry 11. -/
inductive Fault where
  deriving DecidableEq, Repr

/-- Reasons a step is refused. -/
inductive Refusal where
  /-- Raised by an arm of `exec` whose instruction has no meaning yet (none is left). Safe: the run stops. -/
  | notModelled (mnemonic : String)
  /-- Raised by the command LOAD once a STEP has executed since RESET: the spec gives it no meaning there and asks for a
  refusal by name (70_reset_and_hazards.md R184). Safe: the run stops. -/
  | loadAfterStep
  deriving DecidableEq, Repr

/-- What a step, a command or a meaning answers. -/
abbrev Result := Host.Outcome State Fault Refusal

/-- The machine right after RESET (10_state.md R40): memory holds its reset contents, so nothing is listed. -/
def State.reset : State where
  mem := []
  x := .replicate 16 0
  I := 0
  pc := 0x200
  stack := .replicate 16 0
  sp := 0
  fb := .replicate 32 0
  dt := 0
  st := 0
  keys := .replicate 16 false
  dirty := false
  awaitingKey := false
  keyDest := 0
  halted := false
  faultCause := 0
  faultOpcode := 0
  loadOpen := true
  rnd := 0
  draws := 0
  pending := []

end Sys2Proof.Machine
end

