-- ==== Sys2Proof/Machine/Ops.lean ====
section
/-!
DEFINITION. The named operations every meaning is built of: memory, the general registers, the end of an instruction, the
fault entry, the call stack, the framebuffer, the key table.
-/

namespace Sys2Proof.Machine

/-! ### Memory (20_memory.md) -/

/-- FONT_ROM, the 80 bytes RESET writes to 0x000..0x04F: glyph `d` at `5*d`, top row first (10_state.md R33). Log entry 12. -/
def fontRom : List Byte :=
  [0xF0, 0x90, 0x90, 0x90, 0xF0,  0x20, 0x60, 0x20, 0x20, 0x70,
   0xF0, 0x10, 0xF0, 0x80, 0xF0,  0xF0, 0x10, 0xF0, 0x10, 0xF0] ++
  [0x90, 0x90, 0xF0, 0x10, 0x10,  0xF0, 0x80, 0xF0, 0x10, 0xF0,
   0xF0, 0x80, 0xF0, 0x90, 0xF0,  0xF0, 0x10, 0x20, 0x40, 0x40] ++
  [0xF0, 0x90, 0xF0, 0x90, 0xF0,  0xF0, 0x90, 0xF0, 0x10, 0xF0,
   0xF0, 0x90, 0xF0, 0x90, 0x90,  0xE0, 0x90, 0xE0, 0x90, 0xE0] ++
  [0xF0, 0x80, 0x80, 0x80, 0xF0,  0xE0, 0x90, 0x90, 0x90, 0xE0,
   0xF0, 0x80, 0xF0, 0x80, 0xF0,  0xF0, 0x80, 0xF0, 0x80, 0x80]

/-- What an unlisted address reads as: the byte RESET puts there (10_state.md R40). -/
def resetByte (a : Nat) : Byte := fontRom.getD a 0

/-- MemRead(a, 1) (R55). -/
def Memory.read : Memory → Nat → Byte
  | [], a => resetByte a
  | (b, v) :: m, a => if a = b then v else Memory.read m a

/-- MemWrite(a, 1, v) (R56). A byte written back to its reset value is unlisted again. -/
def Memory.write : Memory → Nat → Byte → Memory
  | [], a, v => if v = resetByte a then [] else [(a, v)]
  | (b, w) :: m, a, v =>
    if a < b then if v = resetByte a then (b, w) :: m else (a, v) :: (b, w) :: m
    else if a = b then if v = resetByte a then m else (a, v) :: m
    else (b, w) :: Memory.write m a v

/-- The canonical form from address `lo` on: addresses rise strictly, lie in memory, and no byte is its reset value. -/
def Memory.wfFrom : Nat → Memory → Bool
  | _, [] => true
  | lo, (a, v) :: m => decide (lo ≤ a) && decide (a < Config.memSize) && decide (v ≠ resetByte a) && Memory.wfFrom (a + 1) m

/-- The canonical form of memory. -/
def Memory.wf (m : Memory) : Bool := Memory.wfFrom 0 m

/-- One-byte writes to consecutive addresses, in order (R54). -/
def Memory.storeBytes : Memory → Nat → List Byte → Memory
  | m, _, [] => m
  | m, a, b :: bs => Memory.storeBytes (m.write a b) (a + 1) bs

/-! ### General registers (10_state.md R22, R23) -/

/-- x[i]. -/
def State.reg (s : State) (i : Nibble) : Byte := s.x[i.toNat]'i.isLt

/-- x[i] <- v. -/
def State.setReg (s : State) (i : Nibble) (v : Byte) : State := { s with x := s.x.set i.toNat v i.isLt }

/-! ### The end of an instruction (40_step_cycle.md R95) -/

/-- The STEP under execution has this argument (40_step_cycle.md R90; log entry 2). -/
def State.withRnd (s : State) (rnd : Byte) : State := { s with rnd := rnd }

/-- The last write of an executed instruction: `pc <- target`. A STEP has now executed since RESET, so the window of LOAD
is closed (70_reset_and_hazards.md R184), and its argument is gone (10_state.md R21). -/
def State.finish (s : State) (target : Word) : State := { s with pc := target, loadOpen := false, rnd := 0 }

/-- The common advance, `pc <- pc + 2`. -/
def State.advance (s : State) : State := s.finish (s.pc + 2)

/-- A skip: `pc <- pc + 4` if the condition holds, else `pc <- pc + 2`. -/
def State.skipIf (s : State) (c : Bool) : State := s.finish (if c then s.pc + 4 else s.pc + 2)

/-! ### Taking a fault (60_exceptions.md R151, R154) -/

/-- The codes of R151. -/
def FaultCause.code : FaultCause → BitVec 3
  | .unknownOpcode => 1
  | .stackOverflow => 2
  | .stackUnderflow => 3
  | .fetchBounds => 4
  | .memoryBounds => 5
  | .keyIndex => 6

/-- Fault entry, `raise F(info)` (R154): the three fault registers are written and nothing else of the machine; no state is
saved, control goes nowhere, and there is no return (R157). The STEP that raised it closes the window of LOAD (R184) and its
argument is gone (10_state.md R21). -/
def State.raise (s : State) (cause : FaultCause) (info : Word) : State :=
  { s with halted := true, faultCause := cause.code, faultOpcode := info, loadOpen := false, rnd := 0 }

/-- A fault of an instruction's own: `info` is its word, which is the word fetched, since a legal word has one meaning
(30_encoding.md R74, R81). Log entry 13. -/
def State.raiseFor (s : State) (cause : FaultCause) (i : Instr) : State := s.raise cause (encode i)

/-! ### The call stack (10_state.md R30, R35) -/

/-- stack[i]. -/
def State.stackAt (s : State) (i : Nat) : Word := s.stack[i]?.getD 0

/-- `stack[sp] <- v; sp <- sp + 1`, for `sp < 16`. -/
def State.push (s : State) (v : Word) : State :=
  { s with stack := s.stack.setIfInBounds s.sp.val v, sp := Fin.ofNat 17 (s.sp.val + 1) }

/-- `sp <- sp - 1`, for `sp > 0`. The entry keeps its value. -/
def State.pop (s : State) : State := { s with sp := Fin.ofNat 17 (s.sp.val - 1) }

/-! ### The framebuffer (44_display.md R130) -/

/-- The cell fb[row*64 + col], for `col < 64` and `row < 32`. -/
def Frame.pixel (fb : Frame) (col row : Nat) : Bool := (fb[row]?.getD 0).getLsbD col

/-- `fb[row*64 + col] <- fb[row*64 + col] xor bit`, for `col < 64` and `row < 32`. -/
def Frame.xorPixel (fb : Frame) (col row : Nat) (bit : Bool) : Frame :=
  fb.setIfInBounds row (fb[row]?.getD 0 ^^^ if bit then BitVec.twoPow 64 col else 0)

/-- The framebuffer with every cell 0. -/
def Frame.blank : Frame := .replicate 32 0

/-- The read port of one cell, by its index in row-major order (60_exceptions.md R172). -/
def State.cell (s : State) (i : Nat) : Bool := s.fb.pixel (i % Config.fbWidth) (i / Config.fbWidth)

/-- A new framebuffer, marked dirty: CLS and DRW both set `dirty` whether or not a cell changed (R31, 90_conflicts.md C3). -/
def State.paint (s : State) (fb : Frame) : State := { s with fb := fb, dirty := true }

/-! ### Keys and the key-wait latch (10_state.md R32, R36) -/

/-- keys[k]. -/
def State.key (s : State) (k : Nibble) : Bool := s.keys[k.toNat]'k.isLt

/-- `awaiting_key <- 1; key_dest <- r` (45_keypad_timers.md R143). -/
def State.latchKey (s : State) (r : Nibble) : State := { s with awaitingKey := true, keyDest := r }

end Sys2Proof.Machine
end

