-- ==== Sys2Proof/Machine/Flags.lean ====
section
/-!
DEFINITION. VF, the only condition flag (10_state.md R38), and the three conditions that are written to it.
-/

namespace Sys2Proof.Machine

/-- The number of VF (R23). -/
abbrev vf : Nibble := 15

/-- The flag as VF holds it: the whole register becomes 0 or 1 (R23). -/
def flagByte (c : Bool) : Byte := if c then 1 else 0

/-- `VF <- c`. -/
def State.setFlag (s : State) (c : Bool) : State := s.setReg vf (flagByte c)

/-- ADD Vx,Vy: the 9-bit sum exceeds 255 (42_alu.md R114). -/
def carry (a b : Byte) : Bool := decide (a.toNat + b.toNat > 255)

/-- SUB Vx,Vy: `a > b`, unsigned and strict (42_alu.md R115). -/
def notBorrow (a b : Byte) : Bool := decide (a.toNat > b.toNat)

/-- DRW, for one cell: it goes from set to unset (44_display.md R132). -/
def collides (old bit : Bool) : Bool := old && bit

end Sys2Proof.Machine
end

