-- ==== Sys2Proof/Machine/Operands.lean ====
section
/-!
DEFINITION. Operand forms: immediates (30_encoding.md R73), the one addressing mode of data (20_memory.md R57, R58), register
blocks, decimal digits, sprite bits and coordinates.
-/

namespace Sys2Proof.Machine

/-- `zext_16` of the field NNN (R73). -/
def addrWord (nnn : Addr) : Word := nnn.setWidth 16

/-- `zext_16` of a register. -/
def byteWord (b : Byte) : Word := b.setWidth 16

/-- The address of element `i` of a block: `I + i` on unbounded integers (20_memory.md R58). -/
def State.elemAddr (s : State) (i : Nat) : Nat := s.I.toNat + i

/-- MemoryBounds applies to an access of `cnt` bytes at `I`: the last one lies above 0xFFF. An access of no byte makes no
check (20_memory.md R57). -/
def State.outOfBounds (s : State) (cnt : Nat) : Bool :=
  decide (1 ≤ cnt) && decide (s.elemAddr (cnt - 1) > Config.topAddr)

/-- How many registers `LD [I],Vx` and `LD Vx,[I]` move: x[0] .. x[X] (43_index_memory.md R124). -/
def blockLength (x : Nibble) : Nat := x.toNat + 1

/-- x[0] .. x[n-1], in order. -/
def State.regBlock (s : State) (n : Nat) : List Byte := (List.range n).map fun i => s.reg (BitVec.ofNat 4 i)

/-- The register file after `x[i] <- MemRead(I + i, 1)` for the first `n` registers, in order. The addresses depend on `I`
alone, so the order of the loads is unobservable (43_index_memory.md R127). -/
def State.loadedRegs (s : State) : Nat → Vector Byte 16
  | 0 => s.x
  | n + 1 => (s.loadedRegs n).setIfInBounds n (s.mem.read (s.elemAddr n))

/-- The load of the first `n` registers. -/
def State.loadBlock (s : State) (n : Nat) : State := { s with x := s.loadedRegs n }

/-- One-byte writes from `I` on. -/
def State.storeBlock (s : State) (bs : List Byte) : State := { s with mem := s.mem.storeBytes (s.elemAddr 0) bs }

/-- The decimal digits of a register, hundreds first, a binary number 0..9 each (43_index_memory.md R123). -/
def decimalDigits (a : Byte) : List Byte :=
  [BitVec.ofNat 8 (a.toNat / 100), BitVec.ofNat 8 (a.toNat / 10 % 10), BitVec.ofNat 8 (a.toNat % 10)]

/-- The bit of sprite column `c`, 0 to 7 from the left: bit 7 is the leftmost (44_display.md R130). -/
def spriteBit (b : Byte) (c : Nat) : Bool := b.getLsbD (7 - c)

/-- The screen column of sprite column `c` (44_display.md R132). -/
def spriteCol (vx : Byte) (c : Nat) : Nat := (vx.toNat + c) % Config.fbWidth

/-- The screen row of sprite row `r` (44_display.md R132). -/
def spriteRow (vy : Byte) (r : Nat) : Nat := (vy.toNat + r) % Config.fbHeight

end Sys2Proof.Machine
end

