-- ==== Sys2Proof/Machine/Commands.lean ====
section
/-!
DEFINITION. The commands of the environment other than STEP (60_exceptions.md R165 to R170, 70_reset_and_hazards.md R180 to
R184). While the machine is halted, all but RESET are no-ops (60_exceptions.md R155).
-/

namespace Sys2Proof.Machine

/-- A command that a halted machine ignores (60_exceptions.md R155). -/
def State.unlessHalted (s : State) (t : State) : State := if s.halted then s else t

/-- A counter, floor-clamped at zero (60_exceptions.md R165). -/
def countDown (t : Byte) : Byte := if t ≠ 0 then t - 1 else t

/-- TICK (60_exceptions.md R165): it works during a key wait too. -/
def State.tick (s : State) : State := s.unlessHalted { s with dt := countDown s.dt, st := countDown s.st }

/-- SET_KEY (60_exceptions.md R167). -/
def State.setKey (s : State) (k : Nibble) (pressed : Bool) : State :=
  s.unlessHalted { s with keys := s.keys.set k.toNat pressed k.isLt }

/-- `x[key_dest] <- zext_8(v); awaiting_key <- 0` (60_exceptions.md R168). -/
def State.endKeyWait (s : State) (v : Nibble) : State :=
  { s.setReg s.keyDest (v.setWidth 8) with awaitingKey := false }

/-- DELIVER_KEY (60_exceptions.md R168): lost, not queued, when no key is awaited. -/
def State.deliverKey (s : State) (v : Nibble) : State := s.unlessHalted (if s.awaitingKey then s.endKeyWait v else s)

/-- CLEAR_DIRTY (60_exceptions.md R170). -/
def State.clearDirty (s : State) : State := s.unlessHalted { s with dirty := false }

/-- RESET (70_reset_and_hazards.md R180): every item of the machine takes its reset value, whatever it held. What is not the
machine's stays: the environment's further commands and the count of executed RNDs (log entry 15). -/
def State.resetCommand (s : State) : State := { State.reset with pending := s.pending, draws := s.draws }

/-- What LOAD answers the environment (70_reset_and_hazards.md R182). -/
inductive LoadStatus where
  | ok
  | fail
  deriving DecidableEq, Repr

/-- LOAD, inside its window (70_reset_and_hazards.md R182): the whole image or nothing. -/
def State.load (s : State) (image : List Byte) : LoadStatus × State :=
  if image.length > Config.maxImage then (.fail, s)
  else (.ok, { s with mem := s.mem.storeBytes Config.progBase image })

/-- LOAD as the environment issues it: outside the window of R184 it has no meaning and is refused by name. -/
def loadCommand (image : List Byte) (s : State) : Result :=
  if s.loadOpen then .next (s.load image).2 else .refused .loadAfterStep

end Sys2Proof.Machine
end

