-- ==== Sys2Proof/Machine/Alu.lean ====
section
/-!
DEFINITION. Register and ALU instructions (42_alu.md). Arithmetic on `Byte` wraps modulo 256 (R117). Operands are read before
the first write, and the flag is written before the result (R118).
-/

namespace Sys2Proof.Machine

/-- R110. -/
def execLdVxKk (x : Nibble) (kk : Byte) (s : State) : Result := .next (s.setReg x kk).advance

/-- R111. -/
def execAddVxKk (x : Nibble) (kk : Byte) (s : State) : Result := .next (s.setReg x (s.reg x + kk)).advance

/-- R112. -/
def execLdVxVy (x y : Nibble) (s : State) : Result := .next (s.setReg x (s.reg y)).advance

/-- R113. -/
def execAndVxVy (x y : Nibble) (s : State) : Result := .next (s.setReg x (s.reg x &&& s.reg y)).advance

/-- R114. -/
def execAddVxVy (x y : Nibble) (s : State) : Result :=
  let a := s.reg x
  let b := s.reg y
  .next ((s.setFlag (carry a b)).setReg x (a + b)).advance

/-- R115. -/
def execSubVxVy (x y : Nibble) (s : State) : Result :=
  let a := s.reg x
  let b := s.reg y
  .next ((s.setFlag (notBorrow a b)).setReg x (a - b)).advance

/-- One more RND has executed, so that a STEP the model issues of itself has a fresh argument (log entry 2). -/
def State.takeDraw (s : State) : State := { s with draws := s.draws + 1 }

/-- R116: the argument of this STEP, masked. -/
def execRnd (x : Nibble) (kk : Byte) (s : State) : Result := .next (s.takeDraw.setReg x (s.rnd &&& kk)).advance

end Sys2Proof.Machine
end

