-- ==== Sys2Proof/Machine/Control.lean ====
section
/-!
DEFINITION. Control transfer: RET, JP, CALL and the register skips (41_control_transfer.md).
-/

namespace Sys2Proof.Machine

/-- R101. -/
def execRet (s : State) : Result :=
  if s.sp = 0 then .next (s.raiseFor .stackUnderflow .ret)
  else
    let t := s.pop
    .next (t.finish (t.stackAt t.sp.val))

/-- R102. -/
def execJp (nnn : Addr) (s : State) : Result := .next (s.finish (addrWord nnn))

/-- R103. -/
def execCall (nnn : Addr) (s : State) : Result :=
  if s.sp = 16 then .next (s.raiseFor .stackOverflow (.call nnn))
  else .next ((s.push (s.pc + 2)).finish (addrWord nnn))

/-- R104. -/
def execSeVxKk (x : Nibble) (kk : Byte) (s : State) : Result := .next (s.skipIf (decide (s.reg x = kk)))

/-- R105. -/
def execSneVxKk (x : Nibble) (kk : Byte) (s : State) : Result := .next (s.skipIf (decide (s.reg x ≠ kk)))

/-- R106. -/
def execSneVxVy (x y : Nibble) (s : State) : Result := .next (s.skipIf (decide (s.reg x ≠ s.reg y)))

end Sys2Proof.Machine
end

