-- ==== Sys2Proof/Machine/Display.lean ====
section
/-!
DEFINITION. The display instructions (44_display.md). A sprite is drawn by the two loops of R132 over a framebuffer and the
collision found so far.
-/

namespace Sys2Proof.Machine

/-- R131. -/
def execCls (s : State) : Result := .next (s.paint Frame.blank).advance

/-- The inner body of R132's loops: one sprite bit, XORed into its cell; the second component is VF so far. -/
def drawPixel (vx vy b : Byte) (row col : Nat) (c : Frame × Bool) : Frame × Bool :=
  let px := spriteCol vx col
  let py := spriteRow vy row
  let bit := spriteBit b col
  (c.1.xorPixel px py bit, c.2 || collides (c.1.pixel px py) bit)

/-- R132's loop over the 8 columns of one row. -/
def drawRow (vx vy b : Byte) (row : Nat) (c : Frame × Bool) : Frame × Bool :=
  (List.range 8).foldl (fun c col => drawPixel vx vy b row col c) c

/-- R132's loop over the `n` rows of a sprite at address `a`, one byte of memory a row. -/
def drawSprite (m : Memory) (a : Nat) (vx vy : Byte) (n : Nat) (c : Frame × Bool) : Frame × Bool :=
  (List.range n).foldl (fun c row => drawRow vx vy (m.read (a + row)) row c) c

/-- R132. The coordinates are read before VF is written (R118). -/
def execDrw (x y n : Nibble) (s : State) : Result :=
  if s.outOfBounds n.toNat then .next (s.raiseFor .memoryBounds (.drw x y n))
  else
    let c := drawSprite s.mem (s.elemAddr 0) (s.reg x) (s.reg y) n.toNat (s.fb, false)
    .next ((s.paint c.1).setFlag c.2).advance

end Sys2Proof.Machine
end

