-- ==== Sys2Proof/Machine/IndexMemory.lean ====
section
/-!
DEFINITION. The index register and the memory instructions (43_index_memory.md). The bound of a block is checked once, before
any byte moves (R124), and `I` is left alone by every access (R124, 92_eei_decisions.md D3).
-/

namespace Sys2Proof.Machine

/-- `I <- v`. -/
def State.setI (s : State) (v : Word) : State := { s with I := v }

/-- R120. -/
def execLdI (nnn : Addr) (s : State) : Result := .next (s.setI (addrWord nnn)).advance

/-- R121: 16 bits, wrapping, VF untouched. -/
def execAddIVx (x : Nibble) (s : State) : Result := .next (s.setI (s.I + byteWord (s.reg x))).advance

/-- R122: the whole register is multiplied, no mask. -/
def execLdFVx (x : Nibble) (s : State) : Result :=
  .next (s.setI (BitVec.ofNat 16 ((s.reg x).toNat * Config.glyphBytes))).advance

/-- R123. -/
def execLdBVx (x : Nibble) (s : State) : Result :=
  if s.outOfBounds 3 then .next (s.raiseFor .memoryBounds (.ldBVx x))
  else .next (s.storeBlock (decimalDigits (s.reg x))).advance

/-- R126. -/
def execLdMemVx (x : Nibble) (s : State) : Result :=
  if s.outOfBounds (blockLength x) then .next (s.raiseFor .memoryBounds (.ldMemVx x))
  else .next (s.storeBlock (s.regBlock (blockLength x))).advance

/-- R127. -/
def execLdVxMem (x : Nibble) (s : State) : Result :=
  if s.outOfBounds (blockLength x) then .next (s.raiseFor .memoryBounds (.ldVxMem x))
  else .next (s.loadBlock (blockLength x)).advance

end Sys2Proof.Machine
end

