-- ==== Sys2Proof/Machine/KeypadTimers.lean ====
section
/-!
DEFINITION. Keypad and timer instructions (45_keypad_timers.md). SKP and SKNP read the key table at the whole register, which
is not masked: a value above 15 raises KeyIndex (92_eei_decisions.md D9).
-/

namespace Sys2Proof.Machine

/-- The key a register names is no key of the table. -/
def noSuchKey (k : Byte) : Bool := decide (k.toNat > 15)

/-- keys[k], for a register value of 0 to 15. -/
def State.keyOf (s : State) (k : Byte) : Bool := s.key (k.setWidth 4)

/-- R140. -/
def execSkp (x : Nibble) (s : State) : Result :=
  if noSuchKey (s.reg x) then .next (s.raiseFor .keyIndex (.skp x))
  else .next (s.skipIf (s.keyOf (s.reg x)))

/-- R141. -/
def execSknp (x : Nibble) (s : State) : Result :=
  if noSuchKey (s.reg x) then .next (s.raiseFor .keyIndex (.sknp x))
  else .next (s.skipIf (!s.keyOf (s.reg x)))

/-- R142. -/
def execLdVxDt (x : Nibble) (s : State) : Result := .next (s.setReg x s.dt).advance

/-- R143: the latch is set and `pc` advanced at once; the register is written by DELIVER_KEY. -/
def execLdVxK (x : Nibble) (s : State) : Result := .next (s.latchKey x).advance

/-- `dt <- v`. -/
def State.setDt (s : State) (v : Byte) : State := { s with dt := v }

/-- `st <- v`. -/
def State.setSt (s : State) (v : Byte) : State := { s with st := v }

/-- R144. -/
def execLdDtVx (x : Nibble) (s : State) : Result := .next (s.setDt (s.reg x)).advance

/-- R145. -/
def execLdStVx (x : Nibble) (s : State) : Result := .next (s.setSt (s.reg x)).advance

end Sys2Proof.Machine
end

