-- ==== Sys2Proof/Machine/Cycle.lean ====
section
/-!
DEFINITION. The STEP command (40_step_cycle.md R90 to R96), and the commands taken one at a time in the order the environment
issues them (00_scope.md R6).
-/

namespace Sys2Proof.Machine

/-- The word at `pc`: mem[pc] is its high byte (40_step_cycle.md R93, 20_memory.md R51). The fetch writes nothing. -/
def State.fetchWord (s : State) : Word := wordOfBytes (s.mem.read s.pc.toNat) (s.mem.read (s.pc.toNat + 1))

/-- The second byte of the instruction would lie outside memory (40_step_cycle.md R92). -/
def State.fetchOutOfBounds (s : State) : Bool := decide (s.pc.toNat > 0xFFE)

/-- The gates of STEP: a halted machine and one that waits for a key execute nothing (40_step_cycle.md R91). -/
def State.gated (s : State) : Bool := s.halted || s.awaitingKey

/-- Fetch, decode, execute, for a machine that is not gated (40_step_cycle.md R92 to R94). -/
def cycle (s : State) : Result :=
  if s.fetchOutOfBounds then .next (s.raise .fetchBounds 0)
  else
    match decode s.fetchWord with
    | .ok i => exec i s
    | .error _ => .next (s.raise .unknownOpcode s.fetchWord)

/-- STEP(rnd) (40_step_cycle.md R90). A STEP that the gates turn away takes no note of `rnd` (R91). -/
def stepCommand (rnd : Byte) (s : State) : Result := if s.gated then .next s else cycle (s.withRnd rnd)

/-- One command, applied as one transition (00_scope.md R6). -/
def issue (c : Command) (s : State) : Result :=
  match c with
  | .reset => .next s.resetCommand
  | .load image => loadCommand image s
  | .step rnd => stepCommand rnd s
  | .tick => .next s.tick
  | .setKey k pressed => .next (s.setKey k pressed)
  | .deliverKey v => .next (s.deliverKey v)
  | .clearDirty => .next s.clearDirty

/-- The oldest command the environment has pending is taken and applied; with none pending, the environment issues STEP
(log entry 1), its argument the free value of log entry 2. -/
def nextCommand (s : State) : Result :=
  match s.pending with
  | [] => stepCommand (Config.rndDraw s.draws) s
  | c :: rest => issue c { s with pending := rest }

/-- The two bytes of a table row's word, stored at `pc` and `pc + 1`, and no command pending before the STEP that fetches
them. -/
def State.placeWord (s : State) (nbits w : Nat) : State :=
  { s with
    mem := s.mem.storeBytes s.pc.toNat [highByte (tableWord nbits w), lowByte (tableWord nbits w)]
    pending := [] }

end Sys2Proof.Machine
end

