-- ==== Sys2Proof/Machine/Step.lean ====
section
/-!
DEFINITION. The step of the machine: one command of the environment (00_scope.md R6), and the placing of one instruction where
the next step fetches.
-/

namespace Sys2Proof.Machine

/-- One step: the next command of the environment, which is STEP when none is pending (log entry 1). -/
def step (s : State) : Host.Outcome State Fault Refusal := Sys2Proof.Machine.nextCommand s

/-- `s` with an instruction stored where the next STEP fetches it; log entry 4 says how a program comes to run from reset. A
halted machine, or one that waits for a key, fetches nothing whatever is stored (40_step_cycle.md R91). -/
def State.withFetchWord (s : State) (nbits w : Nat) : State := Sys2Proof.Machine.State.placeWord s nbits w

end Sys2Proof.Machine
end

