-- ==== Sys2Proof/Safety.lean ====
section
/-!
DEFINITION. What counts as a safe run (10_state.md R41), and the vocabulary the statements use: which fault an instruction
raises and when (60_exceptions.md R151), where it leaves `pc` (40_step_cycle.md R95), and what may differ between two states.
-/

namespace Sys2Proof.Machine

/-! ### The invariant (10_state.md R41) -/

/-- R41, with the canonical form of memory and, for the model's own fields, what R182 says of the window of LOAD and R21 of the
argument of STEP. R41 (a) and (b) hold by the types of `sp` and `fb`. -/
structure State.Inv (s : State) : Prop where
  /-- The bytes listed lie in memory and are no reset values. -/
  memory : s.mem.wf = true
  /-- R41 (c). -/
  pc : s.pc.toNat ≤ 0x1002
  /-- R41 (d). -/
  stack : ∀ i < 16, (s.stackAt i).toNat ≤ 0x1000
  /-- R41 (e). -/
  gates : ¬(s.halted = true ∧ s.awaitingKey = true)
  /-- R41 (f). -/
  cause : s.faultCause = 0 ↔ s.halted = false
  /-- Code 7 is never produced (60_exceptions.md R151). -/
  code : s.faultCause ≠ 7
  /-- `fault_opcode` keeps its reset value until a fault (10_state.md R34). -/
  opcode : s.halted = false → s.faultOpcode = 0
  /-- In the window of LOAD the machine is neither halted nor waiting (70_reset_and_hazards.md R182). -/
  window : s.loadOpen = true → s.halted = false ∧ s.awaitingKey = false
  /-- No argument of STEP is held between two commands (10_state.md R21). -/
  argument : s.rnd = 0

/-- A state that the machine reaches from RESET under some commands of the environment (R41). -/
def State.Reachable (s : State) : Prop :=
  ∃ commands n, Host.Core.run Sys2Proof.core n { State.reset with pending := commands } = .next s

/-! ### Faults and the advance of `pc` -/

/-- The fault of an instruction's own, if its condition holds (60_exceptions.md R151, R156). -/
def ownFault (i : Instr) (s : State) : Option FaultCause :=
  match i with
  | .ret => if s.sp.val = 0 then some .stackUnderflow else none
  | .call _ => if s.sp.val = 16 then some .stackOverflow else none
  | .drw _ _ n => if 1 ≤ n.toNat ∧ s.I.toNat + n.toNat - 1 > 0xFFF then some .memoryBounds else none
  | .ldBVx _ => if s.I.toNat + 2 > 0xFFF then some .memoryBounds else none
  | .ldMemVx x => if s.I.toNat + x.toNat > 0xFFF then some .memoryBounds else none
  | .ldVxMem x => if s.I.toNat + x.toNat > 0xFFF then some .memoryBounds else none
  | .skp x => if (s.reg x).toNat > 15 then some .keyIndex else none
  | .sknp x => if (s.reg x).toNat > 15 then some .keyIndex else none
  | _ => none

/-- The condition of a skip, for the five skip instructions (40_step_cycle.md R95). -/
def skipCondition (i : Instr) (s : State) : Option Bool :=
  match i with
  | .seVxKk x kk => some (decide (s.reg x = kk))
  | .sneVxKk x kk => some (decide (s.reg x ≠ kk))
  | .sneVxVy x y => some (decide (s.reg x ≠ s.reg y))
  | .skp x => some (s.keys[(s.reg x).toNat]?.getD false)
  | .sknp x => some (!s.keys[(s.reg x).toNat]?.getD false)
  | _ => none

/-- The new `pc` of an executed instruction, by the classes of 40_step_cycle.md R95, as an exact number. -/
def pcAfter (i : Instr) (s : State) : Nat :=
  match i with
  | .jp nnn => nnn.toNat
  | .call nnn => nnn.toNat
  | .ret => (s.stackAt (s.sp.val - 1)).toNat
  | _ =>
    match skipCondition i s with
    | some true => s.pc.toNat + 4
    | _ => s.pc.toNat + 2

/-! ### The values after RESET (10_state.md R40) -/

/-- The glyphs of the digits 0 to F, row 0 to row 4 of each, as the table of 10_state.md R33 lays them out. -/
def glyphs : List (List Byte) :=
  [[0xF0, 0x90, 0x90, 0x90, 0xF0], [0x20, 0x60, 0x20, 0x20, 0x70], [0xF0, 0x10, 0xF0, 0x80, 0xF0], [0xF0, 0x10, 0xF0, 0x10, 0xF0]] ++
  [[0x90, 0x90, 0xF0, 0x10, 0x10], [0xF0, 0x80, 0xF0, 0x10, 0xF0], [0xF0, 0x80, 0xF0, 0x90, 0xF0], [0xF0, 0x10, 0x20, 0x40, 0x40]] ++
  [[0xF0, 0x90, 0xF0, 0x90, 0xF0], [0xF0, 0x90, 0xF0, 0x10, 0xF0], [0xF0, 0x90, 0xF0, 0x90, 0x90], [0xE0, 0x90, 0xE0, 0x90, 0xE0]] ++
  [[0xF0, 0x80, 0x80, 0x80, 0xF0], [0xE0, 0x90, 0x90, 0x90, 0xE0], [0xF0, 0x80, 0xF0, 0x80, 0xF0], [0xF0, 0x80, 0xF0, 0x80, 0x80]]

/-- Every item of the spec's state holds its value of the table of R40. -/
structure HasResetValues (s : State) : Prop where
  font : ∀ d < 16, ∀ r < 5, s.mem.read (5 * d + r) = (glyphs[d]?.getD [])[r]?.getD 0
  zeros : ∀ a, 0x50 ≤ a → s.mem.read a = 0
  x : ∀ i, s.reg i = 0
  I : s.I = 0
  pc : s.pc = 0x200
  sp : s.sp = 0
  stack : ∀ i < 16, s.stackAt i = 0
  fb : ∀ i < 2048, s.cell i = false
  timers : s.dt = 0 ∧ s.st = 0
  keys : ∀ k, s.key k = false
  dirty : s.dirty = false
  latch : s.awaitingKey = false ∧ s.keyDest = 0
  fault : s.halted = false ∧ s.faultCause = 0 ∧ s.faultOpcode = 0

/-! ### What may differ between two states

Each of these says that `t` is `s` but for the named items of the spec's state. The model's own fields are left open. -/

/-- `s` with the model's own fields taken from `t`. -/
def State.withOwnOf (s t : State) : State := 
  { s with loadOpen := t.loadOpen, rnd := t.rnd, draws := t.draws, pending := t.pending }

/-- The spec's state is unchanged. -/
def OnlyOwn (s t : State) : Prop := t = s.withOwnOf t

def OnlyPc (s t : State) : Prop := OnlyOwn { s with pc := t.pc } t

def OnlyRegistersPc (s t : State) : Prop := OnlyOwn { s with x := t.x, pc := t.pc } t

def OnlyIndexPc (s t : State) : Prop := OnlyOwn { s with I := t.I, pc := t.pc } t

def OnlyMemoryPc (s t : State) : Prop := OnlyOwn { s with mem := t.mem, pc := t.pc } t

def OnlyStackPc (s t : State) : Prop := OnlyOwn { s with stack := t.stack, sp := t.sp, pc := t.pc } t

def OnlyDisplayPc (s t : State) : Prop := OnlyOwn { s with fb := t.fb, dirty := t.dirty, pc := t.pc } t

def OnlyDisplayRegistersPc (s t : State) : Prop :=
  OnlyOwn { s with fb := t.fb, dirty := t.dirty, x := t.x, pc := t.pc } t

def OnlyTimersPc (s t : State) : Prop := OnlyOwn { s with dt := t.dt, st := t.st, pc := t.pc } t

def OnlyLatchPc (s t : State) : Prop := OnlyOwn { s with awaitingKey := t.awaitingKey, keyDest := t.keyDest, pc := t.pc } t

def OnlyFaultRegisters (s t : State) : Prop :=
  OnlyOwn { s with halted := t.halted, faultCause := t.faultCause, faultOpcode := t.faultOpcode } t

/-- Every general register but those listed is unchanged. -/
def SameRegistersBut (dests : List Nibble) (s t : State) : Prop := ∀ r, r ∉ dests → t.reg r = s.reg r

/-- Every byte of memory reads as before. -/
def SameMemory (s t : State) : Prop := ∀ a, t.mem.read a = s.mem.read a

/-- Every byte of memory outside the `n` bytes at `a` reads as before. -/
def SameMemoryOutside (a n : Nat) (s t : State) : Prop := ∀ b, b < a ∨ a + n ≤ b → t.mem.read b = s.mem.read b

/-- The fault of an instruction, as 60_exceptions.md R154 enters it: the fault registers take these values and nothing else
of the spec's state changes. -/
def FaultEntered (code : BitVec 3) (info : Word) (s t : State) : Prop :=
  t.halted = true ∧ t.faultCause = code ∧ t.faultOpcode = info ∧ OnlyFaultRegisters s t

/-- The destination registers of the instructions that write registers (10_state.md R24), for every other one none. -/
def registerDests (i : Instr) : Option (List Nibble) :=
  match i with
  | .ldVxKk x _ => some [x]
  | .addVxKk x _ => some [x]
  | .ldVxVy x _ => some [x]
  | .andVxVy x _ => some [x]
  | .addVxVy x _ => some [15, x]
  | .subVxVy x _ => some [15, x]
  | .rnd x _ => some [x]
  | .ldVxDt x => some [x]
  | .drw _ _ _ => some [15]
  | .ldVxMem x => some ((List.range (x.toNat + 1)).map fun i => BitVec.ofNat 4 i)
  | _ => none

/-- How many bytes the instructions that store to memory write from `I` on, for every other one none. -/
def storeLength (i : Instr) : Option Nat :=
  match i with
  | .ldBVx _ => some 3
  | .ldMemVx x => some (x.toNat + 1)
  | _ => none

end Sys2Proof.Machine
end

