-- ==== Sys2Proof/Certificates/Slice0/Obligations.lean ====
section
/-!
DEFINITION. The statements about the model. Each docstring names the rule of spec/ it formalises. `exec` is an instruction's
meaning, `stepCommand` the command STEP, `step` one command of the environment.
-/

open Sys2Proof Sys2Proof.Machine

/-! ### Encoding -/

/-- 30_encoding.md R71, R72, R81: the bytes of every instruction, whatever bytes follow, decode to that instruction with
every operand at every value. -/
def Obligations.DecodeOfEncodeIsTheInstruction : Prop :=
  ∀ (i : Instr) (rest : List Byte), decodeBytes (encodeBytes i ++ rest) = .ok (i, rest)

/-- 30_encoding.md R74, R81: a legal word has one meaning, and the encoder gives the word back. -/
def Obligations.EncodeOfDecodedIsTheWord : Prop :=
  ∀ (op : Word) (i : Instr), decode op = .ok i → encode i = op

/-- 30_encoding.md R74: the table has 27 rows; a word the decoder reads selects one row and no other, that of the
instruction read; a word the decoder rejects selects none. -/
def Obligations.DecoderAgreesWithOpcodeTable : Prop :=
  opcodeTable.length = 27 ∧
  ∀ op : Word,
    match decode op with
    | .ok i => i.row ∈ opcodeTable ∧ ∀ r ∈ opcodeTable, r.selects op = true ↔ r = i.row
    | .error e => e = .unknownOpcode op ∧ ∀ r ∈ opcodeTable, r.selects op = false

/-- 30_encoding.md R76, R77: the illegal words, family by family. `op` is the word `f x y n` digit by digit. -/
def Obligations.IllegalWordsByFamily : Prop :=
  ∀ f x y n : Nibble, legalWord (f ++ x ++ y ++ n) = false ↔
    (f = 0x0 ∧ ¬(x = 0x0 ∧ y = 0xE ∧ (n = 0x0 ∨ n = 0xE))) ∨ f = 0x5 ∨
    (f = 0x8 ∧ n ∈ ([0x1, 0x3, 0x6, 0x7, 0x8, 0x9, 0xA, 0xB, 0xC, 0xD, 0xE, 0xF] : List Nibble)) ∨
    (f = 0x9 ∧ n ≠ 0x0) ∨ f = 0xB ∨
    (f = 0xE ∧ y ++ n ∉ ([0x9E, 0xA1] : List Byte)) ∨
    (f = 0xF ∧ y ++ n ∉ ([0x07, 0x0A, 0x15, 0x18, 0x1E, 0x29, 0x33, 0x55, 0x65] : List Byte))

/-- 30_encoding.md R74, 95_test_vectors.md: words written out from the encodings, one or more of each family, and two
illegal ones. -/
def Obligations.SampleWordsDecode : Prop :=
  decode 0x00E0 = .ok .cls ∧ decode 0x00EE = .ok .ret ∧ decode 0x2ABC = .ok (.call 0xABC) ∧
  decode 0x332A = .ok (.seVxKk 3 0x2A) ∧ decode 0x6A3C = .ok (.ldVxKk 10 0x3C) ∧
  decode 0x8124 = .ok (.addVxVy 1 2) ∧ decode 0xA2F0 = .ok (.ldI 0x2F0) ∧ decode 0xF433 = .ok (.ldBVx 4) ∧
  decode 0xD125 = .ok (.drw 1 2 5) ∧ decode 0xE5A1 = .ok (.sknp 5) ∧ decode 0xFF0A = .ok (.ldVxK 15) ∧
  decode 0x5120 = .error (.unknownOpcode 0x5120) ∧ decode 0x812E = .error (.unknownOpcode 0x812E)

/-! ### The STEP command -/

/-- 40_step_cycle.md R90, R93; 20_memory.md R51: with the gates open, a STEP whose fetched word decodes to an instruction is that
instruction's meaning on the same state with the STEP's argument `rnd` at hand, and nothing else is added around it. With no
command of the environment pending (log entry 1), the model's step is such a STEP with the free value of log entry 2. -/
def Obligations.StepRunsTheDecodedInstruction : Prop :=
  ∀ (s : State) (i : Instr), s.halted = false → s.awaitingKey = false → s.pc.toNat ≤ 0xFFE →
    decode (s.mem.read s.pc.toNat ++ s.mem.read (s.pc.toNat + 1)) = .ok i →
    (∀ v : Byte, stepCommand v s = exec i { s with rnd := v }) ∧
    (s.pending = [] → step s = exec i { s with rnd := Config.rndDraw s.draws })

/-- 40_step_cycle.md R91: a STEP of a machine that waits for a key, or is halted (the spec's decision D11), changes no state,
whatever its argument. -/
def Obligations.GatedStepIsNoOp : Prop :=
  ∀ (s : State) (v : Byte), s.awaitingKey = true ∨ s.halted = true → stepCommand v s = .next s

/-- 40_step_cycle.md R92, the spec's decision D8: a fetch beyond 0xFFE raises FetchBounds with opcode 0, on the full 16-bit
`pc`; up to 0xFFE the word is fetched and, where it decodes, its instruction executes. -/
def Obligations.FetchBoundIsChecked : Prop :=
  ∀ (s : State) (v : Byte), s.halted = false → s.awaitingKey = false →
    (s.pc.toNat > 0xFFE → ∃ t, stepCommand v s = .next t ∧ FaultEntered 4 0 s t) ∧
    (s.pc.toNat ≤ 0xFFE → ∀ i, decode (s.mem.read s.pc.toNat ++ s.mem.read (s.pc.toNat + 1)) = .ok i →
      stepCommand v s = exec i { s with rnd := v })

/-- 40_step_cycle.md R94, 30_encoding.md R76: a fetched word that selects no row of the table raises UnknownOpcode with that
word, and nothing else changes. -/
def Obligations.IllegalWordRaisesUnknownOpcode : Prop :=
  ∀ (s : State) (v : Byte) (op : Word), s.halted = false → s.awaitingKey = false → s.pc.toNat ≤ 0xFFE →
    op = s.mem.read s.pc.toNat ++ s.mem.read (s.pc.toNat + 1) → legalWord op = false →
    ∃ t, stepCommand v s = .next t ∧ FaultEntered 1 op s t

/-- 40_step_cycle.md R95: the new `pc` of every executed instruction, by class, without wrap. -/
def Obligations.ProgramCounterAdvancesByClass : Prop :=
  ∀ (i : Instr) (s t : State), s.pc.toNat ≤ 0xFFE → ownFault i s = none → exec i s = .next t → t.pc.toNat = pcAfter i s

/-- 40_step_cycle.md R96 (d): but for RND, an instruction's result does not depend on the argument `rnd` of its STEP, nor on the
model's counter (log entry 2); and a STEP that is a no-op, that faults at the fetch, or whose word is not RND gives the same
state for any two arguments. -/
def Obligations.OnlyRndDependsOnTheDraw : Prop :=
  (∀ (i : Instr) (s t : State) (v : Byte) (d : Nat), (∀ x kk, i ≠ .rnd x kk) → exec i s = .next t →
    t.draws = s.draws ∧ exec i { s with rnd := v, draws := d } = .next { t with draws := d }) ∧
  (∀ (s : State) (v w : Byte),
    (s.halted = true ∨ s.awaitingKey = true ∨ s.pc.toNat > 0xFFE ∨
      ∀ x kk, decode (s.mem.read s.pc.toNat ++ s.mem.read (s.pc.toNat + 1)) ≠ .ok (.rnd x kk)) →
    stepCommand v s = stepCommand w s)

/-- 40_step_cycle.md R96 (e), (f); 10_state.md R36: STEP changes the delay timer only by LD DT,Vx and the sound timer only
by LD ST,Vx, never clears `dirty`, and never writes the key table. -/
def Obligations.StepChangesTimersOnlyByTheirInstructions : Prop :=
  ∀ (s t : State) (v : Byte), stepCommand v s = .next t →
    (t.dt ≠ s.dt → ∃ x,
      decode (s.mem.read s.pc.toNat ++ s.mem.read (s.pc.toNat + 1)) = .ok (.ldDtVx x) ∧ t.dt = s.reg x) ∧
    (t.st ≠ s.st → ∃ x,
      decode (s.mem.read s.pc.toNat ++ s.mem.read (s.pc.toNat + 1)) = .ok (.ldStVx x) ∧ t.st = s.reg x) ∧
    (s.dirty = true → t.dirty = true) ∧ t.keys = s.keys

/-! ### Faults -/

/-- 60_exceptions.md R151, R156, R154, the spec's decisions D2, D7, D9, D10 and log entry 13: where the condition of an
instruction's own fault holds, it raises that fault with its own word as `fault_opcode`, and nothing else changes. -/
def Obligations.OwnFaultIsEntered : Prop :=
  ∀ (i : Instr) (s : State) (c : FaultCause), ownFault i s = some c →
    ∃ t, exec i s = .next t ∧ FaultEntered c.code (encode i) s t

/-- 60_exceptions.md R151, R158: where no fault of its own applies, every instruction executes: it answers a next state,
with the fault registers as they were. -/
def Obligations.EveryInstructionExecutes : Prop :=
  ∀ (i : Instr) (s : State), ownFault i s = none →
    ∃ t, exec i s = .next t ∧ t.halted = s.halted ∧ t.faultCause = s.faultCause ∧ t.faultOpcode = s.faultOpcode

/-- 40_step_cycle.md R96 (c), 60_exceptions.md R154, the spec's decision D10: a STEP that halts the machine changes nothing
but the fault registers, and leaves there a cause between 1 and 6 and the fetched word, or 0 for FetchBounds. -/
def Obligations.HaltingStepIsPrecise : Prop :=
  ∀ (s t : State) (v : Byte), stepCommand v s = .next t → s.halted = false → t.halted = true →
    OnlyFaultRegisters s t ∧ 1 ≤ t.faultCause.toNat ∧ t.faultCause.toNat ≤ 6 ∧
    t.faultOpcode =
      if t.faultCause = 4 then 0 else s.mem.read s.pc.toNat ++ s.mem.read (s.pc.toNat + 1)

/-- 60_exceptions.md R155, the spec's decisions D11 and D14: while the machine is halted, STEP, TICK, SET_KEY, DELIVER_KEY
and CLEAR_DIRTY change nothing, and RESET leaves the halted state. -/
def Obligations.HaltedMachineIsFrozen : Prop :=
  ∀ s : State, s.halted = true →
    (∀ v, issue (.step v) s = .next s) ∧ issue .tick s = .next s ∧ (∀ k p, issue (.setKey k p) s = .next s) ∧
    (∀ v, issue (.deliverKey v) s = .next s) ∧ issue .clearDirty s = .next s ∧
    ∃ t, issue .reset s = .next t ∧ t.halted = false

/-! ### Control transfer -/

/-- 41_control_transfer.md R101; the fault at `sp = 0` is the spec's decision D2. -/
def Obligations.ReturnPopsTheCallStack : Prop :=
  decode 0x00EE = .ok .ret ∧
  ∀ s : State,
    (0 < s.sp.val → ∃ t, exec .ret s = .next t ∧ t.sp.val = s.sp.val - 1 ∧ t.pc = s.stackAt (s.sp.val - 1) ∧
      t.stack = s.stack ∧ OnlyStackPc s t) ∧
    (s.sp.val = 0 → ∃ t, exec .ret s = .next t ∧ FaultEntered 3 0x00EE s t)

/-- 41_control_transfer.md R102. -/
def Obligations.JumpSetsProgramCounter : Prop :=
  ∀ (nnn : Addr) (s : State), decode (0x1#4 ++ nnn) = .ok (.jp nnn) ∧
    ∃ t, exec (.jp nnn) s = .next t ∧ t.pc.toNat = nnn.toNat ∧ OnlyPc s t

/-- 41_control_transfer.md R103; the fault at `sp = 16` is the spec's decision D2. -/
def Obligations.CallPushesReturnAddress : Prop :=
  ∀ (nnn : Addr) (s : State), decode (0x2#4 ++ nnn) = .ok (.call nnn) ∧
    (s.sp.val < 16 → ∃ t, exec (.call nnn) s = .next t ∧ t.stackAt s.sp.val = s.pc + 2 ∧
      (∀ i, i ≠ s.sp.val → t.stackAt i = s.stackAt i) ∧ t.sp.val = s.sp.val + 1 ∧ t.pc.toNat = nnn.toNat ∧
      OnlyStackPc s t) ∧
    (s.sp.val = 16 → ∃ t, exec (.call nnn) s = .next t ∧ FaultEntered 2 (0x2#4 ++ nnn) s t)

/-- 41_control_transfer.md R104, R105. -/
def Obligations.SkipsCompareRegisterWithImmediate : Prop :=
  ∀ (x : Nibble) (kk : Byte) (s : State),
    decode (0x3#4 ++ x ++ kk) = .ok (.seVxKk x kk) ∧ decode (0x4#4 ++ x ++ kk) = .ok (.sneVxKk x kk) ∧
    (∃ t, exec (.seVxKk x kk) s = .next t ∧ t.pc = (if s.reg x = kk then s.pc + 4 else s.pc + 2) ∧ OnlyPc s t) ∧
    (∃ t, exec (.sneVxKk x kk) s = .next t ∧ t.pc = (if s.reg x = kk then s.pc + 2 else s.pc + 4) ∧ OnlyPc s t)

/-- 41_control_transfer.md R106, with X = Y, which never skips. -/
def Obligations.SkipIfRegistersDiffer : Prop :=
  ∀ (x y : Nibble) (s : State), decode (0x9#4 ++ x ++ y ++ 0x0#4) = .ok (.sneVxVy x y) ∧
    ∃ t, exec (.sneVxVy x y) s = .next t ∧ t.pc = (if s.reg x = s.reg y then s.pc + 2 else s.pc + 4) ∧
      (x = y → t.pc = s.pc + 2) ∧ OnlyPc s t

/-- 41_control_transfer.md R101, R103 (source S7): a CALL, then any code that leaves the call stack as it found it, then a
RET: execution comes back behind the CALL with the old `sp`, and the entries in use are untouched. -/
def Obligations.CallThenReturnComesBack : Prop :=
  ∀ (nnn : Addr) (s t u : State), s.sp.val < 16 → exec (.call nnn) s = .next t → u.sp = t.sp → u.stack = t.stack →
    ∃ v, exec .ret u = .next v ∧ v.pc = s.pc + 2 ∧ v.sp = s.sp ∧ ∀ i < s.sp.val, v.stackAt i = s.stackAt i

/-! ### Registers and arithmetic -/

/-- 42_alu.md R110. -/
def Obligations.LoadImmediateWritesRegister : Prop :=
  ∀ (x : Nibble) (kk : Byte) (s : State), decode (0x6#4 ++ x ++ kk) = .ok (.ldVxKk x kk) ∧
    ∃ t, exec (.ldVxKk x kk) s = .next t ∧ t.reg x = kk ∧ t.pc = s.pc + 2 ∧
      SameRegistersBut [x] s t ∧ OnlyRegistersPc s t

/-- 42_alu.md R111: the sum wraps and no flag is written. -/
def Obligations.AddImmediateWraps : Prop :=
  ∀ (x : Nibble) (kk : Byte) (s : State), decode (0x7#4 ++ x ++ kk) = .ok (.addVxKk x kk) ∧
    ∃ t, exec (.addVxKk x kk) s = .next t ∧ (t.reg x).toNat = ((s.reg x).toNat + kk.toNat) % 256 ∧ t.pc = s.pc + 2 ∧
      SameRegistersBut [x] s t ∧ OnlyRegistersPc s t

/-- 42_alu.md R112. -/
def Obligations.LoadRegisterCopies : Prop :=
  ∀ (x y : Nibble) (s : State), decode (0x8#4 ++ x ++ y ++ 0x0#4) = .ok (.ldVxVy x y) ∧
    ∃ t, exec (.ldVxVy x y) s = .next t ∧ t.reg x = s.reg y ∧ t.pc = s.pc + 2 ∧
      SameRegistersBut [x] s t ∧ OnlyRegistersPc s t

/-- 42_alu.md R113: bit by bit; VF is no exception. -/
def Obligations.AndIsBitwise : Prop :=
  ∀ (x y : Nibble) (s : State), decode (0x8#4 ++ x ++ y ++ 0x2#4) = .ok (.andVxVy x y) ∧
    ∃ t, exec (.andVxVy x y) s = .next t ∧
      (∀ b, (t.reg x).getLsbD b = ((s.reg x).getLsbD b && (s.reg y).getLsbD b)) ∧ t.pc = s.pc + 2 ∧
      SameRegistersBut [x] s t ∧ OnlyRegistersPc s t

/-- 42_alu.md R114: the operands are read before any write; the carry goes to VF, and where VF is the destination the sum
stands there last. -/
def Obligations.AddRegistersSetsCarry : Prop :=
  ∀ (x y : Nibble) (s : State), decode (0x8#4 ++ x ++ y ++ 0x4#4) = .ok (.addVxVy x y) ∧
    ∃ t, exec (.addVxVy x y) s = .next t ∧ (t.reg x).toNat = ((s.reg x).toNat + (s.reg y).toNat) % 256 ∧
      (x ≠ 15 → t.reg 15 = if (s.reg x).toNat + (s.reg y).toNat > 255 then 1 else 0) ∧ t.pc = s.pc + 2 ∧
      SameRegistersBut [x, 15] s t ∧ OnlyRegistersPc s t

/-- 42_alu.md R115: the operands are read before any write (the spec's decision D12); the flag is the strict comparison, and
where VF is the destination the difference stands there last. -/
def Obligations.SubtractRegistersSetsNotBorrow : Prop :=
  ∀ (x y : Nibble) (s : State), decode (0x8#4 ++ x ++ y ++ 0x5#4) = .ok (.subVxVy x y) ∧
    ∃ t, exec (.subVxVy x y) s = .next t ∧
      (t.reg x).toNat = ((s.reg x).toNat + 256 - (s.reg y).toNat) % 256 ∧
      (x ≠ 15 → t.reg 15 = if (s.reg x).toNat > (s.reg y).toNat then 1 else 0) ∧ t.pc = s.pc + 2 ∧
      SameRegistersBut [x, 15] s t ∧ OnlyRegistersPc s t

/-- 42_alu.md R116: the register receives the argument `rnd` of the STEP, masked, so no bit outside the mask is set. That `rnd`
is an argument of STEP, of any value, is the spec's decision D13. The meaning finds it in the model's own field and counts the
RND (log entry 2); a STEP(v) that fetches the instruction writes `v` masked. -/
def Obligations.RandomByteIsMasked : Prop :=
  ∀ (x : Nibble) (kk : Byte) (s : State), decode (0xC#4 ++ x ++ kk) = .ok (.rnd x kk) ∧
    (∃ t, exec (.rnd x kk) s = .next t ∧ t.reg x = s.rnd &&& kk ∧ t.reg x &&& ~~~kk = 0 ∧
      t.draws = s.draws + 1 ∧ t.pc = s.pc + 2 ∧ SameRegistersBut [x] s t ∧ OnlyRegistersPc s t) ∧
    (s.halted = false → s.awaitingKey = false → s.pc.toNat ≤ 0xFFE →
      s.mem.read s.pc.toNat ++ s.mem.read (s.pc.toNat + 1) = 0xC#4 ++ x ++ kk →
      ∀ v : Byte, ∃ t, issue (.step v) s = .next t ∧ t.reg x = v &&& kk ∧ t.pc = s.pc + 2 ∧ OnlyRegistersPc s t)

/-! ### The index register and memory -/

/-- 43_index_memory.md R120. -/
def Obligations.LoadIndexZeroExtends : Prop :=
  ∀ (nnn : Addr) (s : State), decode (0xA#4 ++ nnn) = .ok (.ldI nnn) ∧
    ∃ t, exec (.ldI nnn) s = .next t ∧ t.I.toNat = nnn.toNat ∧ t.pc = s.pc + 2 ∧ OnlyIndexPc s t

/-- 43_index_memory.md R121: 16 bits, wrapping, no flag. -/
def Obligations.AddIndexWrapsAtSixteenBits : Prop :=
  ∀ (x : Nibble) (s : State), decode (0xF#4 ++ x ++ 0x1E#8) = .ok (.addIVx x) ∧
    ∃ t, exec (.addIVx x) s = .next t ∧ t.I.toNat = (s.I.toNat + (s.reg x).toNat) % 65536 ∧ t.pc = s.pc + 2 ∧
      OnlyIndexPc s t

/-- 43_index_memory.md R122: the whole register times 5. -/
def Obligations.FontAddressIsFiveTimesRegister : Prop :=
  ∀ (x : Nibble) (s : State), decode (0xF#4 ++ x ++ 0x29#8) = .ok (.ldFVx x) ∧
    ∃ t, exec (.ldFVx x) s = .next t ∧ t.I.toNat = (s.reg x).toNat * 5 ∧ t.pc = s.pc + 2 ∧ OnlyIndexPc s t

/-- 43_index_memory.md R123; the bound is the spec's decision D7. The premise is the invariant of memory (log entry 5). -/
def Obligations.DecimalDigitsAreStored : Prop :=
  ∀ (x : Nibble) (s : State), s.mem.wf = true → decode (0xF#4 ++ x ++ 0x33#8) = .ok (.ldBVx x) ∧
    (s.I.toNat + 2 ≤ 0xFFF → ∃ t, exec (.ldBVx x) s = .next t ∧
      (t.mem.read s.I.toNat).toNat = (s.reg x).toNat / 100 ∧
      (t.mem.read (s.I.toNat + 1)).toNat = (s.reg x).toNat / 10 % 10 ∧
      (t.mem.read (s.I.toNat + 2)).toNat = (s.reg x).toNat % 10 ∧
      SameMemoryOutside s.I.toNat 3 s t ∧ t.pc = s.pc + 2 ∧ OnlyMemoryPc s t) ∧
    (s.I.toNat + 2 > 0xFFF → ∃ t, exec (.ldBVx x) s = .next t ∧ FaultEntered 5 (0xF#4 ++ x ++ 0x33#8) s t)

/-- 43_index_memory.md R126: V0..VX go to I..I+X, and `I` is unchanged (the spec's decision D3); the bound is decision D7.
The premise is the invariant of memory (log entry 5). -/
def Obligations.RegisterBlockIsStored : Prop :=
  ∀ (x : Nibble) (s : State), s.mem.wf = true → decode (0xF#4 ++ x ++ 0x55#8) = .ok (.ldMemVx x) ∧
    (s.I.toNat + x.toNat ≤ 0xFFF → ∃ t, exec (.ldMemVx x) s = .next t ∧
      (∀ i : Nibble, i.toNat ≤ x.toNat → t.mem.read (s.I.toNat + i.toNat) = s.reg i) ∧
      SameMemoryOutside s.I.toNat (x.toNat + 1) s t ∧ t.pc = s.pc + 2 ∧ OnlyMemoryPc s t) ∧
    (s.I.toNat + x.toNat > 0xFFF → ∃ t, exec (.ldMemVx x) s = .next t ∧ FaultEntered 5 (0xF#4 ++ x ++ 0x55#8) s t)

/-- 43_index_memory.md R127: V0..VX come from I..I+X, the registers above X and `I` are unchanged (the spec's decision D3);
the bound is decision D7. -/
def Obligations.RegisterBlockIsLoaded : Prop :=
  ∀ (x : Nibble) (s : State), decode (0xF#4 ++ x ++ 0x65#8) = .ok (.ldVxMem x) ∧
    (s.I.toNat + x.toNat ≤ 0xFFF → ∃ t, exec (.ldVxMem x) s = .next t ∧
      (∀ i : Nibble, t.reg i = if i.toNat ≤ x.toNat then s.mem.read (s.I.toNat + i.toNat) else s.reg i) ∧
      t.pc = s.pc + 2 ∧ OnlyRegistersPc s t) ∧
    (s.I.toNat + x.toNat > 0xFFF → ∃ t, exec (.ldVxMem x) s = .next t ∧ FaultEntered 5 (0xF#4 ++ x ++ 0x65#8) s t)

/-- 43_index_memory.md R125, under the spec's decision D3: a block stored is restored by the load, after anything that keeps
`I` and the block's bytes. -/
def Obligations.BlockStoreThenLoadRestores : Prop :=
  ∀ (x : Nibble) (s t u : State), s.mem.wf = true → s.I.toNat + x.toNat ≤ 0xFFF → exec (.ldMemVx x) s = .next t →
    u.I = t.I → (∀ a, t.I.toNat ≤ a → a ≤ t.I.toNat + x.toNat → u.mem.read a = t.mem.read a) →
    ∃ v, exec (.ldVxMem x) u = .next v ∧ ∀ i : Nibble, i.toNat ≤ x.toNat → v.reg i = s.reg i

/-! ### Display -/

/-- 44_display.md R131. -/
def Obligations.ClearBlanksTheFramebuffer : Prop :=
  decode 0x00E0 = .ok .cls ∧
  ∀ s : State, ∃ t, exec .cls s = .next t ∧ (∀ i < 2048, t.cell i = false) ∧ t.dirty = true ∧ t.pc = s.pc + 2 ∧
    OnlyDisplayPc s t

/-- 44_display.md R132: the cell of each sprite bit, wrapped on both axes, is XORed with it; every other cell is unchanged;
VF is 1 exactly when a set cell met a set bit, else 0; `dirty` is set. Sprite column `c` is bit `7 - c` of its byte. The bit
order, the wrap, the bound and the reading of the coordinates before VF is written are the spec's decisions D5, D4, D7 and
D12. -/
def Obligations.DrawXorsTheSprite : Prop :=
  ∀ (x y n : Nibble) (s : State), decode (0xD#4 ++ x ++ y ++ n) = .ok (.drw x y n) ∧
    (n = 0 ∨ s.I.toNat + n.toNat - 1 ≤ 0xFFF → ∃ t, exec (.drw x y n) s = .next t ∧
      (∀ r < n.toNat, ∀ c < 8,
        t.fb.pixel (((s.reg x).toNat + c) % 64) (((s.reg y).toNat + r) % 32) =
          (s.fb.pixel (((s.reg x).toNat + c) % 64) (((s.reg y).toNat + r) % 32) ^^
            (s.mem.read (s.I.toNat + r)).getLsbD (7 - c))) ∧
      (∀ col < 64, ∀ row < 32,
        (∀ r < n.toNat, ∀ c < 8, ¬(col = ((s.reg x).toNat + c) % 64 ∧ row = ((s.reg y).toNat + r) % 32)) →
        t.fb.pixel col row = s.fb.pixel col row) ∧
      (t.reg 15 = 0 ∨ t.reg 15 = 1) ∧
      (t.reg 15 = 1 ↔ ∃ r < n.toNat, ∃ c < 8,
        s.fb.pixel (((s.reg x).toNat + c) % 64) (((s.reg y).toNat + r) % 32) = true ∧
        (s.mem.read (s.I.toNat + r)).getLsbD (7 - c) = true) ∧
      t.dirty = true ∧ t.pc = s.pc + 2 ∧ SameRegistersBut [15] s t ∧ OnlyDisplayRegistersPc s t) ∧
    (n ≠ 0 ∧ s.I.toNat + n.toNat - 1 > 0xFFF →
      ∃ t, exec (.drw x y n) s = .next t ∧ FaultEntered 5 (0xD#4 ++ x ++ y ++ n) s t)

/-- 44_display.md R133 (b): the same sprite drawn twice at the same place restores every cell of the framebuffer, and the
second draw collides exactly when the sprite has a set bit, if the first did not collide. -/
def Obligations.DrawTwiceRestores : Prop :=
  ∀ (x y n : Nibble) (s t u : State), ownFault (.drw x y n) s = none → exec (.drw x y n) s = .next t →
    u.I = t.I → u.mem = t.mem → u.fb = t.fb → u.reg x = s.reg x → u.reg y = s.reg y →
    ∃ v, exec (.drw x y n) u = .next v ∧ (∀ col < 64, ∀ row < 32, v.fb.pixel col row = s.fb.pixel col row) ∧
      (t.reg 15 = 0 → (v.reg 15 = 1 ↔ ∃ r < n.toNat, s.mem.read (s.I.toNat + r) ≠ 0))

/-! ### Keypad and timers -/

/-- 45_keypad_timers.md R140, R141: the key table is read at the whole register; a value above 15 raises KeyIndex (the
spec's decision D9). -/
def Obligations.KeySkipsReadTheKeyTable : Prop :=
  ∀ (x : Nibble) (s : State), decode (0xE#4 ++ x ++ 0x9E#8) = .ok (.skp x) ∧ decode (0xE#4 ++ x ++ 0xA1#8) = .ok (.sknp x) ∧
    (∀ k : Nibble, (s.reg x).toNat = k.toNat →
      (∃ t, exec (.skp x) s = .next t ∧ t.pc = (if s.key k = true then s.pc + 4 else s.pc + 2) ∧ OnlyPc s t) ∧
      (∃ t, exec (.sknp x) s = .next t ∧ t.pc = (if s.key k = true then s.pc + 2 else s.pc + 4) ∧ OnlyPc s t)) ∧
    ((s.reg x).toNat > 15 →
      (∃ t, exec (.skp x) s = .next t ∧ FaultEntered 6 (0xE#4 ++ x ++ 0x9E#8) s t) ∧
      (∃ t, exec (.sknp x) s = .next t ∧ FaultEntered 6 (0xE#4 ++ x ++ 0xA1#8) s t))

/-- 45_keypad_timers.md R142. -/
def Obligations.LoadFromDelayTimer : Prop :=
  ∀ (x : Nibble) (s : State), decode (0xF#4 ++ x ++ 0x07#8) = .ok (.ldVxDt x) ∧
    ∃ t, exec (.ldVxDt x) s = .next t ∧ t.reg x = s.dt ∧ t.pc = s.pc + 2 ∧ SameRegistersBut [x] s t ∧ OnlyRegistersPc s t

/-- 45_keypad_timers.md R143: the latch is set and `pc` advanced; then STEP is a no-op until DELIVER_KEY writes the register
and clears the latch, so that the next STEP fetches behind the instruction. -/
def Obligations.WaitForKeySetsTheLatch : Prop :=
  ∀ (x : Nibble) (s : State), decode (0xF#4 ++ x ++ 0x0A#8) = .ok (.ldVxK x) ∧
    ∃ t, exec (.ldVxK x) s = .next t ∧ t.awaitingKey = true ∧ t.keyDest = x ∧ t.pc = s.pc + 2 ∧ OnlyLatchPc s t ∧
      (∀ r : Byte, stepCommand r t = .next t) ∧
      (s.halted = false → ∀ v : Nibble, ∃ u, issue (.deliverKey v) t = .next u ∧ (u.reg x).toNat = v.toNat ∧
        u.awaitingKey = false ∧ u.halted = false ∧ u.pc = s.pc + 2 ∧ SameRegistersBut [x] t u)

/-- 45_keypad_timers.md R144, R145. -/
def Obligations.TimersAreLoadedFromRegister : Prop :=
  ∀ (x : Nibble) (s : State), decode (0xF#4 ++ x ++ 0x15#8) = .ok (.ldDtVx x) ∧
    decode (0xF#4 ++ x ++ 0x18#8) = .ok (.ldStVx x) ∧
    (∃ t, exec (.ldDtVx x) s = .next t ∧ t.dt = s.reg x ∧ t.st = s.st ∧ t.pc = s.pc + 2 ∧ OnlyTimersPc s t) ∧
    (∃ t, exec (.ldStVx x) s = .next t ∧ t.st = s.reg x ∧ t.dt = s.dt ∧ t.pc = s.pc + 2 ∧ OnlyTimersPc s t)

/-! ### The other commands of the environment -/

/-- 60_exceptions.md R165: both counters go down by 1 and stop at 0, during a key wait too; a halted machine ignores TICK
(the spec's decision D11). -/
def Obligations.TickCountsDownToZero : Prop :=
  ∀ s : State, ∃ t, issue .tick s = .next t ∧
    (s.halted = false → t.dt.toNat = s.dt.toNat - 1 ∧ t.st.toNat = s.st.toNat - 1) ∧ (s.halted = true → t = s) ∧
    OnlyOwn { s with dt := t.dt, st := t.st } t

/-- 60_exceptions.md R167; a halted machine ignores the command (the spec's decision D11). -/
def Obligations.SetKeyWritesTheKeyTable : Prop :=
  ∀ (s : State) (k : Nibble) (p : Bool), ∃ t, issue (.setKey k p) s = .next t ∧
    (s.halted = false → t.key k = p) ∧ (s.halted = true → t = s) ∧ (∀ j, j ≠ k → t.key j = s.key j) ∧
    OnlyOwn { s with keys := t.keys } t

/-- 60_exceptions.md R168: the value goes to the latched register and the latch is cleared; without a wait it is lost, and a
halted machine ignores the command (the spec's decision D11). -/
def Obligations.DeliverKeyEndsTheWait : Prop :=
  ∀ (s : State) (v : Nibble), ∃ t, issue (.deliverKey v) s = .next t ∧
    (s.halted = false → s.awaitingKey = true →
      (t.reg s.keyDest).toNat = v.toNat ∧ t.awaitingKey = false ∧ SameRegistersBut [s.keyDest] s t) ∧
    (s.halted = true ∨ s.awaitingKey = false → t = s) ∧
    OnlyOwn { s with x := t.x, awaitingKey := t.awaitingKey } t

/-- 60_exceptions.md R170; a halted machine ignores the command (the spec's decision D11). -/
def Obligations.ClearDirtyClearsTheFlag : Prop :=
  ∀ s : State, ∃ t, issue .clearDirty s = .next t ∧ (s.halted = false → t.dirty = false) ∧ (s.halted = true → t = s) ∧
    OnlyOwn { s with dirty := t.dirty } t

/-- 70_reset_and_hazards.md R180: RESET, in every state, puts every item to its reset value. That it is a command, and the
font's bytes, are the spec's decisions D14 and D6. -/
def Obligations.ResetCommandGivesTheResetValues : Prop :=
  ∀ s : State, ∃ t, issue .reset s = .next t ∧ HasResetValues t

/-- 70_reset_and_hazards.md R182, R183, R184: inside its window LOAD writes the whole image from 0x200 on and nothing else,
or, for an image that does not fit, nothing at all; outside the window it is refused by name. The window and the refusal are
the model's reading of R184 (log entry 3). The premise is the invariant of memory. -/
def Obligations.LoadIsAllOrNothing : Prop :=
  ∀ (s : State) (image : List Byte), s.mem.wf = true →
    (s.loadOpen = true → image.length ≤ 3584 → (s.load image).1 = .ok ∧ ∃ t, issue (.load image) s = .next t ∧
      (∀ i (h : i < image.length), t.mem.read (0x200 + i) = image[i]) ∧ SameMemoryOutside 0x200 image.length s t ∧
      OnlyOwn { s with mem := t.mem } t) ∧
    (s.loadOpen = true → image.length > 3584 → (s.load image).1 = .fail ∧ issue (.load image) s = .next s) ∧
    (s.loadOpen = false → issue (.load image) s = .refused .loadAfterStep)

/-- 70_reset_and_hazards.md R184, the spec's decision D14, with the window held in the model's field `loadOpen` (log entry 3):
RESET opens the window, a STEP that executes or faults closes it, a STEP that the gates turn away leaves it, and so does every
other command. -/
def Obligations.LoadWindowLastsFromResetToTheFirstStep : Prop :=
  ∀ s : State,
    (∃ t, issue .reset s = .next t ∧ t.loadOpen = true) ∧
    (s.halted = false → s.awaitingKey = false → ∀ v, ∃ t, stepCommand v s = .next t ∧ t.loadOpen = false) ∧
    (s.halted = true ∨ s.awaitingKey = true → ∀ v, ∃ t, stepCommand v s = .next t ∧ t.loadOpen = s.loadOpen) ∧
    (∀ c t, c ≠ .reset → (∀ v, c ≠ .step v) → issue c s = .next t → t.loadOpen = s.loadOpen)

/-- 00_scope.md R6, as the model holds the environment's commands (log entry 1): a step takes the oldest pending command, with
the arguments the environment gave it, and applies it; with none pending it applies STEP, its argument the free value of log
entry 2. -/
def Obligations.StepTakesTheOldestCommand : Prop :=
  ∀ s : State, (s.pending = [] → step s = issue (.step (Config.rndDraw s.draws)) s) ∧
    ∀ c rest, s.pending = c :: rest → step s = issue c { s with pending := rest }

/-- 60_exceptions.md R169: the key-wait latch as a machine of two states. A command other than RESET sets the latch only as
a STEP that executes LD Vx,K, and clears it only as a DELIVER_KEY. -/
def Obligations.KeyWaitLatchTransitions : Prop :=
  ∀ (c : Command) (s t : State), issue c s = .next t → c ≠ .reset →
    (s.awaitingKey = false → t.awaitingKey = true →
      (∃ v, c = .step v) ∧ ∃ x,
        decode (s.mem.read s.pc.toNat ++ s.mem.read (s.pc.toNat + 1)) = .ok (.ldVxK x) ∧ t.keyDest = x) ∧
    (s.awaitingKey = true → t.awaitingKey = false → ∃ v, c = .deliverKey v)

/-! ### Reset and invariants -/

/-- 10_state.md R40, R33: every item of the machine after reset. The font's bytes and the fault registers' values are the
spec's decisions D6 and D10. -/
def Obligations.ResetStateHasTheResetValues : Prop := HasResetValues State.reset

/-- 70_reset_and_hazards.md R181: without a program the first STEP raises UnknownOpcode with the word 0. That every further STEP
changes nothing is 40_step_cycle.md R91 (b) and 60_exceptions.md R155, the spec's decision D11 (log entry 10). Both are said of
the model's step, which is STEP here because the reset state's list of commands is empty (log entry 1). -/
def Obligations.MachineWithoutProgramFaults : Prop :=
  ∃ t, step State.reset = .next t ∧ FaultEntered 1 0 State.reset t ∧ step t = .next t

/-- 10_state.md R41: the invariant holds after RESET. The clauses on the form of memory, on the window of LOAD and
on the argument of STEP are the model's (log entries 5, 3 and 2). -/
def Obligations.InvariantHoldsAtReset : Prop := State.reset.Inv

/-- 10_state.md R41: every step keeps the invariant, from every state that has it, whatever command the environment issues. The
clauses on the form of memory, on the window of LOAD and on the argument of STEP are the model's (log entries 5, 3 and 2), and
so is the list that the step takes its command from (log entry 1). -/
def Obligations.EveryStepKeepsTheInvariant : Prop :=
  ∀ s t : State, s.Inv → step s = .next t → t.Inv

/-- 10_state.md R41: the invariant holds in every state reachable from RESET by the commands of the environment. The invariant's
clauses on the form of memory, on the window of LOAD and on the argument of STEP are the model's (log entries 5, 3 and 2), and a
reachable state is one that the model reaches under some list of commands (log entry 1). -/
def Obligations.ReachableStatesMeetTheInvariant : Prop :=
  ∀ s : State, s.Reachable → s.Inv

/-! ### Frames -/

/-- 10_state.md R24, R28 to R38; 40_step_cycle.md R96 (a): the frame of the instructions that write registers: LD Vx,kk;
ADD Vx,kk; LD Vx,Vy; AND; ADD Vx,Vy; SUB; RND; LD Vx,DT; LD Vx,[I]; DRW. That LD Vx,[I] leaves `I` unchanged is the spec's
decision D3 (log entry 6), that it and DRW fault out of bounds its decision D7 (log entry 10). The list `pending` is the model's
own field (log entry 1). -/
def Obligations.RegisterInstructionFrame : Prop :=
  ∀ (i : Instr) (dests : List Nibble) (s t : State), registerDests i = some dests → ownFault i s = none →
    exec i s = .next t →
    SameRegistersBut dests s t ∧ SameMemory s t ∧ t.I = s.I ∧ t.stack = s.stack ∧ t.sp = s.sp ∧ t.dt = s.dt ∧
    t.st = s.st ∧ t.keys = s.keys ∧ t.awaitingKey = s.awaitingKey ∧ t.keyDest = s.keyDest ∧ t.halted = s.halted ∧
    t.faultCause = s.faultCause ∧ t.faultOpcode = s.faultOpcode ∧ t.pending = s.pending ∧
    ((∀ x y n, i ≠ .drw x y n) → t.fb = s.fb ∧ t.dirty = s.dirty)

/-- 43_index_memory.md R123, R126; 40_step_cycle.md R96 (a): the frame of the instructions that store: LD B,Vx stores 3 bytes
from `I` on, LD [I],Vx X + 1 bytes; every other byte reads as before. That LD [I],Vx leaves `I` unchanged is the spec's decision
D3 (log entry 6), that both fault out of bounds its decision D7 (log entry 10). The list `pending` is the model's own field (log
entry 1). -/
def Obligations.StoringInstructionFrame : Prop :=
  ∀ (i : Instr) (n : Nat) (s t : State), storeLength i = some n → ownFault i s = none → exec i s = .next t →
    SameMemoryOutside (s.elemAddr 0) n s t ∧ SameRegistersBut [] s t ∧ t.I = s.I ∧ t.stack = s.stack ∧ t.sp = s.sp ∧
    t.fb = s.fb ∧ t.dirty = s.dirty ∧ t.dt = s.dt ∧ t.st = s.st ∧ t.keys = s.keys ∧ t.awaitingKey = s.awaitingKey ∧
    t.keyDest = s.keyDest ∧ t.halted = s.halted ∧ t.faultCause = s.faultCause ∧ t.faultOpcode = s.faultOpcode ∧
    t.pending = s.pending

/-- 10_state.md R24, R28 to R32, R35 to R37; 40_step_cycle.md R96 (a): the frame of every other instruction (CLS, RET, JP, CALL,
the five skips, LD I, ADD I, LD F, LD Vx,K, LD DT, LD ST): no register and no byte of memory changes, the call stack only by CALL
and `sp` only by CALL and RET, `I` only by LD I, ADD I and LD F, the display only by CLS, the latch only by LD Vx,K, each timer
only by its own instruction. The faults left out, of RET, CALL, SKP and SKNP, are the spec's decisions D2 and D9 (log entry 10).
The list `pending` is the model's own field (log entry 1). -/
def Obligations.OtherInstructionFrame : Prop :=
  ∀ (i : Instr) (s t : State), registerDests i = none → storeLength i = none → ownFault i s = none → exec i s = .next t →
    SameRegistersBut [] s t ∧ SameMemory s t ∧ t.keys = s.keys ∧ t.halted = s.halted ∧ t.faultCause = s.faultCause ∧
    t.faultOpcode = s.faultOpcode ∧ t.pending = s.pending ∧
    ((∀ nnn, i ≠ .call nnn) → t.stack = s.stack ∧ (i ≠ .ret → t.sp = s.sp)) ∧
    ((∀ nnn, i ≠ .ldI nnn) → (∀ x, i ≠ .addIVx x) → (∀ x, i ≠ .ldFVx x) → t.I = s.I) ∧
    (i ≠ .cls → t.fb = s.fb ∧ t.dirty = s.dirty) ∧
    ((∀ x, i ≠ .ldVxK x) → t.awaitingKey = s.awaitingKey ∧ t.keyDest = s.keyDest) ∧
    ((∀ x, i ≠ .ldDtVx x) → t.dt = s.dt) ∧ ((∀ x, i ≠ .ldStVx x) → t.st = s.st)
end

