-- ==== Sys2Proof/Laws/Decode.lean ====
section
/-!
SUPPORT. The fields of a word and the formats of words are inverse to each other (30_encoding.md R71, R72), and when a word
given by its four digits selects a row of the opcode table (R74).
-/

namespace Sys2Proof

variable (fam x y n : Nibble) (kk : Byte) (nnn : Addr)

@[simp] theorem fieldFam_formatNNN : fieldFam (formatNNN fam nnn) = fam := by
  apply BitVec.eq_of_getLsbD_eq; intro i hi
  simp [fieldFam, formatNNN]; grind

@[simp] theorem fieldNNN_formatNNN : fieldNNN (formatNNN fam nnn) = nnn := by
  apply BitVec.eq_of_getLsbD_eq; intro i hi
  simp [fieldNNN, formatNNN]; grind

@[simp] theorem fieldFam_formatXKK : fieldFam (formatXKK fam x kk) = fam := by
  apply BitVec.eq_of_getLsbD_eq; intro i hi
  simp [fieldFam, formatXKK]; grind

@[simp] theorem fieldX_formatXKK : fieldX (formatXKK fam x kk) = x := by
  apply BitVec.eq_of_getLsbD_eq; intro i hi
  simp [fieldX, formatXKK]; grind

@[simp] theorem fieldKK_formatXKK : fieldKK (formatXKK fam x kk) = kk := by
  apply BitVec.eq_of_getLsbD_eq; intro i hi
  simp [fieldKK, formatXKK]; grind

@[simp] theorem fieldFam_formatXYN : fieldFam (formatXYN fam x y n) = fam := by
  apply BitVec.eq_of_getLsbD_eq; intro i hi
  simp [fieldFam, formatXYN]; grind

@[simp] theorem fieldX_formatXYN : fieldX (formatXYN fam x y n) = x := by
  apply BitVec.eq_of_getLsbD_eq; intro i hi
  simp [fieldX, formatXYN]; grind

@[simp] theorem fieldY_formatXYN : fieldY (formatXYN fam x y n) = y := by
  apply BitVec.eq_of_getLsbD_eq; intro i hi
  simp [fieldY, formatXYN]; grind

@[simp] theorem fieldN_formatXYN : fieldN (formatXYN fam x y n) = n := by
  apply BitVec.eq_of_getLsbD_eq; intro i hi
  simp [fieldN, formatXYN]; grind

theorem formatNNN_fields (w : Word) : formatNNN (fieldFam w) (fieldNNN w) = w := by
  apply BitVec.eq_of_getLsbD_eq; intro i hi
  simp [fieldFam, fieldNNN, formatNNN]; grind

theorem formatXKK_fields (w : Word) : formatXKK (fieldFam w) (fieldX w) (fieldKK w) = w := by
  apply BitVec.eq_of_getLsbD_eq; intro i hi
  simp [fieldFam, fieldX, fieldKK, formatXKK]; grind

theorem formatXYN_fields (w : Word) : formatXYN (fieldFam w) (fieldX w) (fieldY w) (fieldN w) = w := by
  apply BitVec.eq_of_getLsbD_eq; intro i hi
  simp [fieldFam, fieldX, fieldY, fieldN, formatXYN]; grind

@[simp] theorem wordOfBytes_bytes (w : Word) : wordOfBytes (highByte w) (lowByte w) = w := by
  apply BitVec.eq_of_getLsbD_eq; intro i hi
  simp [wordOfBytes, highByte, lowByte]; grind

/-- The last family, by exclusion of the others. -/
theorem family_last {f : Nibble} (h0 : ¬f = 0#4) (h1 : ¬f = 1#4) (h2 : ¬f = 2#4) (h3 : ¬f = 3#4) (h4 : ¬f = 4#4)
    (h5 : ¬f = 5#4) (h6 : ¬f = 6#4) (h7 : ¬f = 7#4) (h8 : ¬f = 8#4) (h9 : ¬f = 9#4) (h10 : ¬f = 10#4)
    (h11 : ¬f = 11#4) (h12 : ¬f = 12#4) (h13 : ¬f = 13#4) (h14 : ¬f = 14#4) : f = 15#4 := by bv_omega

/-! ### Words by their four digits -/

/-- Format XKK by digits. -/
theorem formatXKK_eq : formatXKK fam x kk = formatXYN fam x (kk.extractLsb' 4 4) (kk.extractLsb' 0 4) := by
  apply BitVec.eq_of_getLsbD_eq; intro i hi
  simp [formatXKK, formatXYN]; grind

/-- Format NNN by digits. -/
theorem formatNNN_eq :
    formatNNN fam nnn = formatXYN fam (nnn.extractLsb' 8 4) (nnn.extractLsb' 4 4) (nnn.extractLsb' 0 4) := by
  apply BitVec.eq_of_getLsbD_eq; intro i hi
  simp [formatNNN, formatXYN]; grind

/-- The mask of a whole digit. -/
@[simp] theorem nibble_and_ones (d : Nibble) : d &&& 15#4 = d := by revert d; decide

/-- A mask acts digit by digit. -/
theorem formatXYN_and (f x y n f' x' y' n' : Nibble) :
    formatXYN f x y n &&& formatXYN f' x' y' n' = formatXYN (f &&& f') (x &&& x') (y &&& y') (n &&& n') := by
  apply BitVec.eq_of_getLsbD_eq; intro i hi
  simp only [formatXYN, BitVec.getLsbD_and, BitVec.getLsbD_append]; grind

/-- Words are equal exactly when their digits are. -/
theorem formatXYN_inj {f x y n f' x' y' n' : Nibble} :
    formatXYN f x y n = formatXYN f' x' y' n' ↔ f = f' ∧ x = x' ∧ y = y' ∧ n = n' := by
  constructor
  · intro h
    have h1 := congrArg fieldFam h
    have h2 := congrArg fieldX h
    have h3 := congrArg fieldY h
    have h4 := congrArg fieldN h
    simp only [fieldFam_formatXYN, fieldX_formatXYN, fieldY_formatXYN, fieldN_formatXYN] at h1 h2 h3 h4
    exact ⟨h1, h2, h3, h4⟩
  · rintro ⟨rfl, rfl, rfl, rfl⟩; rfl

/-- A word selects a row exactly when each of its digits does. -/
theorem OpcodeRow.selects_iff (r : OpcodeRow) (f x y n : Nibble) : r.selects (formatXYN f x y n) = true ↔
    f &&& fieldFam r.mask = fieldFam r.pattern ∧ x &&& fieldX r.mask = fieldX r.pattern ∧
      y &&& fieldY r.mask = fieldY r.pattern ∧ n &&& fieldN r.mask = fieldN r.pattern := by
  rw [← formatXYN_inj, ← formatXYN_and, formatXYN_fields, formatXYN_fields]
  simp [OpcodeRow.selects]

/-- Two digits of a byte are equal exactly when the bytes are. -/
theorem byte_digits_inj {y n y' n' : Nibble} : (y ++ n : Byte) = y' ++ n' ↔ y = y' ∧ n = n' := by
  have high : ∀ y n : Nibble, (y ++ n : Byte).extractLsb' 4 4 = y := by decide
  have low : ∀ y n : Nibble, (y ++ n : Byte).extractLsb' 0 4 = n := by decide
  constructor
  · intro h
    have h1 := congrArg (fun b : Byte => b.extractLsb' 4 4) h
    have h2 := congrArg (fun b : Byte => b.extractLsb' 0 4) h
    simp only [high, low] at h1 h2
    exact ⟨h1, h2⟩
  · rintro ⟨rfl, rfl⟩; rfl

end Sys2Proof
end

