-- ==== Sys2Proof/Laws/State.lean ====
section
/-!
SUPPORT. The small lemmas of State: one per field and update, so that no proof unfolds an update of the record.
-/

namespace Sys2Proof.Machine

variable (s : State)

/-! ### State.setReg -/

@[simp] theorem State.setReg_mem (i : Nibble) (v : Byte) : (s.setReg i v).mem = s.mem := rfl
@[simp] theorem State.setReg_x (i : Nibble) (v : Byte) : (s.setReg i v).x = s.x.set i.toNat v i.isLt := rfl
@[simp] theorem State.setReg_I (i : Nibble) (v : Byte) : (s.setReg i v).I = s.I := rfl
@[simp] theorem State.setReg_pc (i : Nibble) (v : Byte) : (s.setReg i v).pc = s.pc := rfl
@[simp] theorem State.setReg_stack (i : Nibble) (v : Byte) : (s.setReg i v).stack = s.stack := rfl
@[simp] theorem State.setReg_sp (i : Nibble) (v : Byte) : (s.setReg i v).sp = s.sp := rfl
@[simp] theorem State.setReg_fb (i : Nibble) (v : Byte) : (s.setReg i v).fb = s.fb := rfl
@[simp] theorem State.setReg_dt (i : Nibble) (v : Byte) : (s.setReg i v).dt = s.dt := rfl
@[simp] theorem State.setReg_st (i : Nibble) (v : Byte) : (s.setReg i v).st = s.st := rfl
@[simp] theorem State.setReg_keys (i : Nibble) (v : Byte) : (s.setReg i v).keys = s.keys := rfl
@[simp] theorem State.setReg_dirty (i : Nibble) (v : Byte) : (s.setReg i v).dirty = s.dirty := rfl
@[simp] theorem State.setReg_awaitingKey (i : Nibble) (v : Byte) : (s.setReg i v).awaitingKey = s.awaitingKey := rfl
@[simp] theorem State.setReg_keyDest (i : Nibble) (v : Byte) : (s.setReg i v).keyDest = s.keyDest := rfl
@[simp] theorem State.setReg_halted (i : Nibble) (v : Byte) : (s.setReg i v).halted = s.halted := rfl
@[simp] theorem State.setReg_faultCause (i : Nibble) (v : Byte) : (s.setReg i v).faultCause = s.faultCause := rfl
@[simp] theorem State.setReg_faultOpcode (i : Nibble) (v : Byte) : (s.setReg i v).faultOpcode = s.faultOpcode := rfl
@[simp] theorem State.setReg_loadOpen (i : Nibble) (v : Byte) : (s.setReg i v).loadOpen = s.loadOpen := rfl
@[simp] theorem State.setReg_rnd (i : Nibble) (v : Byte) : (s.setReg i v).rnd = s.rnd := rfl
@[simp] theorem State.setReg_draws (i : Nibble) (v : Byte) : (s.setReg i v).draws = s.draws := rfl
@[simp] theorem State.setReg_pending (i : Nibble) (v : Byte) : (s.setReg i v).pending = s.pending := rfl

/-! ### State.setFlag -/

@[simp] theorem State.setFlag_mem (c : Bool) : (s.setFlag c).mem = s.mem := rfl
@[simp] theorem State.setFlag_x (c : Bool) : (s.setFlag c).x = s.x.set 15 (flagByte c) := rfl
@[simp] theorem State.setFlag_I (c : Bool) : (s.setFlag c).I = s.I := rfl
@[simp] theorem State.setFlag_pc (c : Bool) : (s.setFlag c).pc = s.pc := rfl
@[simp] theorem State.setFlag_stack (c : Bool) : (s.setFlag c).stack = s.stack := rfl
@[simp] theorem State.setFlag_sp (c : Bool) : (s.setFlag c).sp = s.sp := rfl
@[simp] theorem State.setFlag_fb (c : Bool) : (s.setFlag c).fb = s.fb := rfl
@[simp] theorem State.setFlag_dt (c : Bool) : (s.setFlag c).dt = s.dt := rfl
@[simp] theorem State.setFlag_st (c : Bool) : (s.setFlag c).st = s.st := rfl
@[simp] theorem State.setFlag_keys (c : Bool) : (s.setFlag c).keys = s.keys := rfl
@[simp] theorem State.setFlag_dirty (c : Bool) : (s.setFlag c).dirty = s.dirty := rfl
@[simp] theorem State.setFlag_awaitingKey (c : Bool) : (s.setFlag c).awaitingKey = s.awaitingKey := rfl
@[simp] theorem State.setFlag_keyDest (c : Bool) : (s.setFlag c).keyDest = s.keyDest := rfl
@[simp] theorem State.setFlag_halted (c : Bool) : (s.setFlag c).halted = s.halted := rfl
@[simp] theorem State.setFlag_faultCause (c : Bool) : (s.setFlag c).faultCause = s.faultCause := rfl
@[simp] theorem State.setFlag_faultOpcode (c : Bool) : (s.setFlag c).faultOpcode = s.faultOpcode := rfl
@[simp] theorem State.setFlag_loadOpen (c : Bool) : (s.setFlag c).loadOpen = s.loadOpen := rfl
@[simp] theorem State.setFlag_rnd (c : Bool) : (s.setFlag c).rnd = s.rnd := rfl
@[simp] theorem State.setFlag_draws (c : Bool) : (s.setFlag c).draws = s.draws := rfl
@[simp] theorem State.setFlag_pending (c : Bool) : (s.setFlag c).pending = s.pending := rfl

/-! ### State.withRnd -/

@[simp] theorem State.withRnd_mem (v : Byte) : (s.withRnd v).mem = s.mem := rfl
@[simp] theorem State.withRnd_x (v : Byte) : (s.withRnd v).x = s.x := rfl
@[simp] theorem State.withRnd_I (v : Byte) : (s.withRnd v).I = s.I := rfl
@[simp] theorem State.withRnd_pc (v : Byte) : (s.withRnd v).pc = s.pc := rfl
@[simp] theorem State.withRnd_stack (v : Byte) : (s.withRnd v).stack = s.stack := rfl
@[simp] theorem State.withRnd_sp (v : Byte) : (s.withRnd v).sp = s.sp := rfl
@[simp] theorem State.withRnd_fb (v : Byte) : (s.withRnd v).fb = s.fb := rfl
@[simp] theorem State.withRnd_dt (v : Byte) : (s.withRnd v).dt = s.dt := rfl
@[simp] theorem State.withRnd_st (v : Byte) : (s.withRnd v).st = s.st := rfl
@[simp] theorem State.withRnd_keys (v : Byte) : (s.withRnd v).keys = s.keys := rfl
@[simp] theorem State.withRnd_dirty (v : Byte) : (s.withRnd v).dirty = s.dirty := rfl
@[simp] theorem State.withRnd_awaitingKey (v : Byte) : (s.withRnd v).awaitingKey = s.awaitingKey := rfl
@[simp] theorem State.withRnd_keyDest (v : Byte) : (s.withRnd v).keyDest = s.keyDest := rfl
@[simp] theorem State.withRnd_halted (v : Byte) : (s.withRnd v).halted = s.halted := rfl
@[simp] theorem State.withRnd_faultCause (v : Byte) : (s.withRnd v).faultCause = s.faultCause := rfl
@[simp] theorem State.withRnd_faultOpcode (v : Byte) : (s.withRnd v).faultOpcode = s.faultOpcode := rfl
@[simp] theorem State.withRnd_loadOpen (v : Byte) : (s.withRnd v).loadOpen = s.loadOpen := rfl
@[simp] theorem State.withRnd_rnd (v : Byte) : (s.withRnd v).rnd = v := rfl
@[simp] theorem State.withRnd_draws (v : Byte) : (s.withRnd v).draws = s.draws := rfl
@[simp] theorem State.withRnd_pending (v : Byte) : (s.withRnd v).pending = s.pending := rfl

/-! ### State.finish -/

@[simp] theorem State.finish_mem (target : Word) : (s.finish target).mem = s.mem := rfl
@[simp] theorem State.finish_x (target : Word) : (s.finish target).x = s.x := rfl
@[simp] theorem State.finish_I (target : Word) : (s.finish target).I = s.I := rfl
@[simp] theorem State.finish_pc (target : Word) : (s.finish target).pc = target := rfl
@[simp] theorem State.finish_stack (target : Word) : (s.finish target).stack = s.stack := rfl
@[simp] theorem State.finish_sp (target : Word) : (s.finish target).sp = s.sp := rfl
@[simp] theorem State.finish_fb (target : Word) : (s.finish target).fb = s.fb := rfl
@[simp] theorem State.finish_dt (target : Word) : (s.finish target).dt = s.dt := rfl
@[simp] theorem State.finish_st (target : Word) : (s.finish target).st = s.st := rfl
@[simp] theorem State.finish_keys (target : Word) : (s.finish target).keys = s.keys := rfl
@[simp] theorem State.finish_dirty (target : Word) : (s.finish target).dirty = s.dirty := rfl
@[simp] theorem State.finish_awaitingKey (target : Word) : (s.finish target).awaitingKey = s.awaitingKey := rfl
@[simp] theorem State.finish_keyDest (target : Word) : (s.finish target).keyDest = s.keyDest := rfl
@[simp] theorem State.finish_halted (target : Word) : (s.finish target).halted = s.halted := rfl
@[simp] theorem State.finish_faultCause (target : Word) : (s.finish target).faultCause = s.faultCause := rfl
@[simp] theorem State.finish_faultOpcode (target : Word) : (s.finish target).faultOpcode = s.faultOpcode := rfl
@[simp] theorem State.finish_loadOpen (target : Word) : (s.finish target).loadOpen = false := rfl
@[simp] theorem State.finish_rnd (target : Word) : (s.finish target).rnd = 0 := rfl
@[simp] theorem State.finish_draws (target : Word) : (s.finish target).draws = s.draws := rfl
@[simp] theorem State.finish_pending (target : Word) : (s.finish target).pending = s.pending := rfl

/-! ### State.advance -/

@[simp] theorem State.advance_mem : (s.advance).mem = s.mem := rfl
@[simp] theorem State.advance_x : (s.advance).x = s.x := rfl
@[simp] theorem State.advance_I : (s.advance).I = s.I := rfl
@[simp] theorem State.advance_pc : (s.advance).pc = s.pc + 2 := rfl
@[simp] theorem State.advance_stack : (s.advance).stack = s.stack := rfl
@[simp] theorem State.advance_sp : (s.advance).sp = s.sp := rfl
@[simp] theorem State.advance_fb : (s.advance).fb = s.fb := rfl
@[simp] theorem State.advance_dt : (s.advance).dt = s.dt := rfl
@[simp] theorem State.advance_st : (s.advance).st = s.st := rfl
@[simp] theorem State.advance_keys : (s.advance).keys = s.keys := rfl
@[simp] theorem State.advance_dirty : (s.advance).dirty = s.dirty := rfl
@[simp] theorem State.advance_awaitingKey : (s.advance).awaitingKey = s.awaitingKey := rfl
@[simp] theorem State.advance_keyDest : (s.advance).keyDest = s.keyDest := rfl
@[simp] theorem State.advance_halted : (s.advance).halted = s.halted := rfl
@[simp] theorem State.advance_faultCause : (s.advance).faultCause = s.faultCause := rfl
@[simp] theorem State.advance_faultOpcode : (s.advance).faultOpcode = s.faultOpcode := rfl
@[simp] theorem State.advance_loadOpen : (s.advance).loadOpen = false := rfl
@[simp] theorem State.advance_rnd : (s.advance).rnd = 0 := rfl
@[simp] theorem State.advance_draws : (s.advance).draws = s.draws := rfl
@[simp] theorem State.advance_pending : (s.advance).pending = s.pending := rfl

/-! ### State.skipIf -/

@[simp] theorem State.skipIf_mem (c : Bool) : (s.skipIf c).mem = s.mem := rfl
@[simp] theorem State.skipIf_x (c : Bool) : (s.skipIf c).x = s.x := rfl
@[simp] theorem State.skipIf_I (c : Bool) : (s.skipIf c).I = s.I := rfl
@[simp] theorem State.skipIf_pc (c : Bool) : (s.skipIf c).pc = if c then s.pc + 4 else s.pc + 2 := rfl
@[simp] theorem State.skipIf_stack (c : Bool) : (s.skipIf c).stack = s.stack := rfl
@[simp] theorem State.skipIf_sp (c : Bool) : (s.skipIf c).sp = s.sp := rfl
@[simp] theorem State.skipIf_fb (c : Bool) : (s.skipIf c).fb = s.fb := rfl
@[simp] theorem State.skipIf_dt (c : Bool) : (s.skipIf c).dt = s.dt := rfl
@[simp] theorem State.skipIf_st (c : Bool) : (s.skipIf c).st = s.st := rfl
@[simp] theorem State.skipIf_keys (c : Bool) : (s.skipIf c).keys = s.keys := rfl
@[simp] theorem State.skipIf_dirty (c : Bool) : (s.skipIf c).dirty = s.dirty := rfl
@[simp] theorem State.skipIf_awaitingKey (c : Bool) : (s.skipIf c).awaitingKey = s.awaitingKey := rfl
@[simp] theorem State.skipIf_keyDest (c : Bool) : (s.skipIf c).keyDest = s.keyDest := rfl
@[simp] theorem State.skipIf_halted (c : Bool) : (s.skipIf c).halted = s.halted := rfl
@[simp] theorem State.skipIf_faultCause (c : Bool) : (s.skipIf c).faultCause = s.faultCause := rfl
@[simp] theorem State.skipIf_faultOpcode (c : Bool) : (s.skipIf c).faultOpcode = s.faultOpcode := rfl
@[simp] theorem State.skipIf_loadOpen (c : Bool) : (s.skipIf c).loadOpen = false := rfl
@[simp] theorem State.skipIf_rnd (c : Bool) : (s.skipIf c).rnd = 0 := rfl
@[simp] theorem State.skipIf_draws (c : Bool) : (s.skipIf c).draws = s.draws := rfl
@[simp] theorem State.skipIf_pending (c : Bool) : (s.skipIf c).pending = s.pending := rfl

/-! ### State.raise -/

@[simp] theorem State.raise_mem (f : FaultCause) (info : Word) : (s.raise f info).mem = s.mem := rfl
@[simp] theorem State.raise_x (f : FaultCause) (info : Word) : (s.raise f info).x = s.x := rfl
@[simp] theorem State.raise_I (f : FaultCause) (info : Word) : (s.raise f info).I = s.I := rfl
@[simp] theorem State.raise_pc (f : FaultCause) (info : Word) : (s.raise f info).pc = s.pc := rfl
@[simp] theorem State.raise_stack (f : FaultCause) (info : Word) : (s.raise f info).stack = s.stack := rfl
@[simp] theorem State.raise_sp (f : FaultCause) (info : Word) : (s.raise f info).sp = s.sp := rfl
@[simp] theorem State.raise_fb (f : FaultCause) (info : Word) : (s.raise f info).fb = s.fb := rfl
@[simp] theorem State.raise_dt (f : FaultCause) (info : Word) : (s.raise f info).dt = s.dt := rfl
@[simp] theorem State.raise_st (f : FaultCause) (info : Word) : (s.raise f info).st = s.st := rfl
@[simp] theorem State.raise_keys (f : FaultCause) (info : Word) : (s.raise f info).keys = s.keys := rfl
@[simp] theorem State.raise_dirty (f : FaultCause) (info : Word) : (s.raise f info).dirty = s.dirty := rfl
@[simp] theorem State.raise_awaitingKey (f : FaultCause) (info : Word) : (s.raise f info).awaitingKey = s.awaitingKey := rfl
@[simp] theorem State.raise_keyDest (f : FaultCause) (info : Word) : (s.raise f info).keyDest = s.keyDest := rfl
@[simp] theorem State.raise_halted (f : FaultCause) (info : Word) : (s.raise f info).halted = true := rfl
@[simp] theorem State.raise_faultCause (f : FaultCause) (info : Word) : (s.raise f info).faultCause = f.code := rfl
@[simp] theorem State.raise_faultOpcode (f : FaultCause) (info : Word) : (s.raise f info).faultOpcode = info := rfl
@[simp] theorem State.raise_loadOpen (f : FaultCause) (info : Word) : (s.raise f info).loadOpen = false := rfl
@[simp] theorem State.raise_rnd (f : FaultCause) (info : Word) : (s.raise f info).rnd = 0 := rfl
@[simp] theorem State.raise_draws (f : FaultCause) (info : Word) : (s.raise f info).draws = s.draws := rfl
@[simp] theorem State.raise_pending (f : FaultCause) (info : Word) : (s.raise f info).pending = s.pending := rfl

/-! ### State.raiseFor -/

@[simp] theorem State.raiseFor_mem (f : FaultCause) (i : Instr) : (s.raiseFor f i).mem = s.mem := rfl
@[simp] theorem State.raiseFor_x (f : FaultCause) (i : Instr) : (s.raiseFor f i).x = s.x := rfl
@[simp] theorem State.raiseFor_I (f : FaultCause) (i : Instr) : (s.raiseFor f i).I = s.I := rfl
@[simp] theorem State.raiseFor_pc (f : FaultCause) (i : Instr) : (s.raiseFor f i).pc = s.pc := rfl
@[simp] theorem State.raiseFor_stack (f : FaultCause) (i : Instr) : (s.raiseFor f i).stack = s.stack := rfl
@[simp] theorem State.raiseFor_sp (f : FaultCause) (i : Instr) : (s.raiseFor f i).sp = s.sp := rfl
@[simp] theorem State.raiseFor_fb (f : FaultCause) (i : Instr) : (s.raiseFor f i).fb = s.fb := rfl
@[simp] theorem State.raiseFor_dt (f : FaultCause) (i : Instr) : (s.raiseFor f i).dt = s.dt := rfl
@[simp] theorem State.raiseFor_st (f : FaultCause) (i : Instr) : (s.raiseFor f i).st = s.st := rfl
@[simp] theorem State.raiseFor_keys (f : FaultCause) (i : Instr) : (s.raiseFor f i).keys = s.keys := rfl
@[simp] theorem State.raiseFor_dirty (f : FaultCause) (i : Instr) : (s.raiseFor f i).dirty = s.dirty := rfl
@[simp] theorem State.raiseFor_awaitingKey (f : FaultCause) (i : Instr) : (s.raiseFor f i).awaitingKey = s.awaitingKey := rfl
@[simp] theorem State.raiseFor_keyDest (f : FaultCause) (i : Instr) : (s.raiseFor f i).keyDest = s.keyDest := rfl
@[simp] theorem State.raiseFor_halted (f : FaultCause) (i : Instr) : (s.raiseFor f i).halted = true := rfl
@[simp] theorem State.raiseFor_faultCause (f : FaultCause) (i : Instr) : (s.raiseFor f i).faultCause = f.code := rfl
@[simp] theorem State.raiseFor_faultOpcode (f : FaultCause) (i : Instr) : (s.raiseFor f i).faultOpcode = encode i := rfl
@[simp] theorem State.raiseFor_loadOpen (f : FaultCause) (i : Instr) : (s.raiseFor f i).loadOpen = false := rfl
@[simp] theorem State.raiseFor_rnd (f : FaultCause) (i : Instr) : (s.raiseFor f i).rnd = 0 := rfl
@[simp] theorem State.raiseFor_draws (f : FaultCause) (i : Instr) : (s.raiseFor f i).draws = s.draws := rfl
@[simp] theorem State.raiseFor_pending (f : FaultCause) (i : Instr) : (s.raiseFor f i).pending = s.pending := rfl

/-! ### State.push -/

@[simp] theorem State.push_mem (v : Word) : (s.push v).mem = s.mem := rfl
@[simp] theorem State.push_x (v : Word) : (s.push v).x = s.x := rfl
@[simp] theorem State.push_I (v : Word) : (s.push v).I = s.I := rfl
@[simp] theorem State.push_pc (v : Word) : (s.push v).pc = s.pc := rfl
@[simp] theorem State.push_stack (v : Word) : (s.push v).stack = s.stack.setIfInBounds s.sp.val v := rfl
@[simp] theorem State.push_sp (v : Word) : (s.push v).sp = Fin.ofNat 17 (s.sp.val + 1) := rfl
@[simp] theorem State.push_fb (v : Word) : (s.push v).fb = s.fb := rfl
@[simp] theorem State.push_dt (v : Word) : (s.push v).dt = s.dt := rfl
@[simp] theorem State.push_st (v : Word) : (s.push v).st = s.st := rfl
@[simp] theorem State.push_keys (v : Word) : (s.push v).keys = s.keys := rfl
@[simp] theorem State.push_dirty (v : Word) : (s.push v).dirty = s.dirty := rfl
@[simp] theorem State.push_awaitingKey (v : Word) : (s.push v).awaitingKey = s.awaitingKey := rfl
@[simp] theorem State.push_keyDest (v : Word) : (s.push v).keyDest = s.keyDest := rfl
@[simp] theorem State.push_halted (v : Word) : (s.push v).halted = s.halted := rfl
@[simp] theorem State.push_faultCause (v : Word) : (s.push v).faultCause = s.faultCause := rfl
@[simp] theorem State.push_faultOpcode (v : Word) : (s.push v).faultOpcode = s.faultOpcode := rfl
@[simp] theorem State.push_loadOpen (v : Word) : (s.push v).loadOpen = s.loadOpen := rfl
@[simp] theorem State.push_rnd (v : Word) : (s.push v).rnd = s.rnd := rfl
@[simp] theorem State.push_draws (v : Word) : (s.push v).draws = s.draws := rfl
@[simp] theorem State.push_pending (v : Word) : (s.push v).pending = s.pending := rfl

/-! ### State.pop -/

@[simp] theorem State.pop_mem : (s.pop).mem = s.mem := rfl
@[simp] theorem State.pop_x : (s.pop).x = s.x := rfl
@[simp] theorem State.pop_I : (s.pop).I = s.I := rfl
@[simp] theorem State.pop_pc : (s.pop).pc = s.pc := rfl
@[simp] theorem State.pop_stack : (s.pop).stack = s.stack := rfl
@[simp] theorem State.pop_sp : (s.pop).sp = Fin.ofNat 17 (s.sp.val - 1) := rfl
@[simp] theorem State.pop_fb : (s.pop).fb = s.fb := rfl
@[simp] theorem State.pop_dt : (s.pop).dt = s.dt := rfl
@[simp] theorem State.pop_st : (s.pop).st = s.st := rfl
@[simp] theorem State.pop_keys : (s.pop).keys = s.keys := rfl
@[simp] theorem State.pop_dirty : (s.pop).dirty = s.dirty := rfl
@[simp] theorem State.pop_awaitingKey : (s.pop).awaitingKey = s.awaitingKey := rfl
@[simp] theorem State.pop_keyDest : (s.pop).keyDest = s.keyDest := rfl
@[simp] theorem State.pop_halted : (s.pop).halted = s.halted := rfl
@[simp] theorem State.pop_faultCause : (s.pop).faultCause = s.faultCause := rfl
@[simp] theorem State.pop_faultOpcode : (s.pop).faultOpcode = s.faultOpcode := rfl
@[simp] theorem State.pop_loadOpen : (s.pop).loadOpen = s.loadOpen := rfl
@[simp] theorem State.pop_rnd : (s.pop).rnd = s.rnd := rfl
@[simp] theorem State.pop_draws : (s.pop).draws = s.draws := rfl
@[simp] theorem State.pop_pending : (s.pop).pending = s.pending := rfl

/-! ### State.paint -/

@[simp] theorem State.paint_mem (fb : Frame) : (s.paint fb).mem = s.mem := rfl
@[simp] theorem State.paint_x (fb : Frame) : (s.paint fb).x = s.x := rfl
@[simp] theorem State.paint_I (fb : Frame) : (s.paint fb).I = s.I := rfl
@[simp] theorem State.paint_pc (fb : Frame) : (s.paint fb).pc = s.pc := rfl
@[simp] theorem State.paint_stack (fb : Frame) : (s.paint fb).stack = s.stack := rfl
@[simp] theorem State.paint_sp (fb : Frame) : (s.paint fb).sp = s.sp := rfl
@[simp] theorem State.paint_fb (fb : Frame) : (s.paint fb).fb = fb := rfl
@[simp] theorem State.paint_dt (fb : Frame) : (s.paint fb).dt = s.dt := rfl
@[simp] theorem State.paint_st (fb : Frame) : (s.paint fb).st = s.st := rfl
@[simp] theorem State.paint_keys (fb : Frame) : (s.paint fb).keys = s.keys := rfl
@[simp] theorem State.paint_dirty (fb : Frame) : (s.paint fb).dirty = true := rfl
@[simp] theorem State.paint_awaitingKey (fb : Frame) : (s.paint fb).awaitingKey = s.awaitingKey := rfl
@[simp] theorem State.paint_keyDest (fb : Frame) : (s.paint fb).keyDest = s.keyDest := rfl
@[simp] theorem State.paint_halted (fb : Frame) : (s.paint fb).halted = s.halted := rfl
@[simp] theorem State.paint_faultCause (fb : Frame) : (s.paint fb).faultCause = s.faultCause := rfl
@[simp] theorem State.paint_faultOpcode (fb : Frame) : (s.paint fb).faultOpcode = s.faultOpcode := rfl
@[simp] theorem State.paint_loadOpen (fb : Frame) : (s.paint fb).loadOpen = s.loadOpen := rfl
@[simp] theorem State.paint_rnd (fb : Frame) : (s.paint fb).rnd = s.rnd := rfl
@[simp] theorem State.paint_draws (fb : Frame) : (s.paint fb).draws = s.draws := rfl
@[simp] theorem State.paint_pending (fb : Frame) : (s.paint fb).pending = s.pending := rfl

/-! ### State.latchKey -/

@[simp] theorem State.latchKey_mem (r : Nibble) : (s.latchKey r).mem = s.mem := rfl
@[simp] theorem State.latchKey_x (r : Nibble) : (s.latchKey r).x = s.x := rfl
@[simp] theorem State.latchKey_I (r : Nibble) : (s.latchKey r).I = s.I := rfl
@[simp] theorem State.latchKey_pc (r : Nibble) : (s.latchKey r).pc = s.pc := rfl
@[simp] theorem State.latchKey_stack (r : Nibble) : (s.latchKey r).stack = s.stack := rfl
@[simp] theorem State.latchKey_sp (r : Nibble) : (s.latchKey r).sp = s.sp := rfl
@[simp] theorem State.latchKey_fb (r : Nibble) : (s.latchKey r).fb = s.fb := rfl
@[simp] theorem State.latchKey_dt (r : Nibble) : (s.latchKey r).dt = s.dt := rfl
@[simp] theorem State.latchKey_st (r : Nibble) : (s.latchKey r).st = s.st := rfl
@[simp] theorem State.latchKey_keys (r : Nibble) : (s.latchKey r).keys = s.keys := rfl
@[simp] theorem State.latchKey_dirty (r : Nibble) : (s.latchKey r).dirty = s.dirty := rfl
@[simp] theorem State.latchKey_awaitingKey (r : Nibble) : (s.latchKey r).awaitingKey = true := rfl
@[simp] theorem State.latchKey_keyDest (r : Nibble) : (s.latchKey r).keyDest = r := rfl
@[simp] theorem State.latchKey_halted (r : Nibble) : (s.latchKey r).halted = s.halted := rfl
@[simp] theorem State.latchKey_faultCause (r : Nibble) : (s.latchKey r).faultCause = s.faultCause := rfl
@[simp] theorem State.latchKey_faultOpcode (r : Nibble) : (s.latchKey r).faultOpcode = s.faultOpcode := rfl
@[simp] theorem State.latchKey_loadOpen (r : Nibble) : (s.latchKey r).loadOpen = s.loadOpen := rfl
@[simp] theorem State.latchKey_rnd (r : Nibble) : (s.latchKey r).rnd = s.rnd := rfl
@[simp] theorem State.latchKey_draws (r : Nibble) : (s.latchKey r).draws = s.draws := rfl
@[simp] theorem State.latchKey_pending (r : Nibble) : (s.latchKey r).pending = s.pending := rfl

/-! ### State.takeDraw -/

@[simp] theorem State.takeDraw_mem : (s.takeDraw).mem = s.mem := rfl
@[simp] theorem State.takeDraw_x : (s.takeDraw).x = s.x := rfl
@[simp] theorem State.takeDraw_I : (s.takeDraw).I = s.I := rfl
@[simp] theorem State.takeDraw_pc : (s.takeDraw).pc = s.pc := rfl
@[simp] theorem State.takeDraw_stack : (s.takeDraw).stack = s.stack := rfl
@[simp] theorem State.takeDraw_sp : (s.takeDraw).sp = s.sp := rfl
@[simp] theorem State.takeDraw_fb : (s.takeDraw).fb = s.fb := rfl
@[simp] theorem State.takeDraw_dt : (s.takeDraw).dt = s.dt := rfl
@[simp] theorem State.takeDraw_st : (s.takeDraw).st = s.st := rfl
@[simp] theorem State.takeDraw_keys : (s.takeDraw).keys = s.keys := rfl
@[simp] theorem State.takeDraw_dirty : (s.takeDraw).dirty = s.dirty := rfl
@[simp] theorem State.takeDraw_awaitingKey : (s.takeDraw).awaitingKey = s.awaitingKey := rfl
@[simp] theorem State.takeDraw_keyDest : (s.takeDraw).keyDest = s.keyDest := rfl
@[simp] theorem State.takeDraw_halted : (s.takeDraw).halted = s.halted := rfl
@[simp] theorem State.takeDraw_faultCause : (s.takeDraw).faultCause = s.faultCause := rfl
@[simp] theorem State.takeDraw_faultOpcode : (s.takeDraw).faultOpcode = s.faultOpcode := rfl
@[simp] theorem State.takeDraw_loadOpen : (s.takeDraw).loadOpen = s.loadOpen := rfl
@[simp] theorem State.takeDraw_rnd : (s.takeDraw).rnd = s.rnd := rfl
@[simp] theorem State.takeDraw_draws : (s.takeDraw).draws = s.draws + 1 := rfl
@[simp] theorem State.takeDraw_pending : (s.takeDraw).pending = s.pending := rfl

/-! ### State.setI -/

@[simp] theorem State.setI_mem (v : Word) : (s.setI v).mem = s.mem := rfl
@[simp] theorem State.setI_x (v : Word) : (s.setI v).x = s.x := rfl
@[simp] theorem State.setI_I (v : Word) : (s.setI v).I = v := rfl
@[simp] theorem State.setI_pc (v : Word) : (s.setI v).pc = s.pc := rfl
@[simp] theorem State.setI_stack (v : Word) : (s.setI v).stack = s.stack := rfl
@[simp] theorem State.setI_sp (v : Word) : (s.setI v).sp = s.sp := rfl
@[simp] theorem State.setI_fb (v : Word) : (s.setI v).fb = s.fb := rfl
@[simp] theorem State.setI_dt (v : Word) : (s.setI v).dt = s.dt := rfl
@[simp] theorem State.setI_st (v : Word) : (s.setI v).st = s.st := rfl
@[simp] theorem State.setI_keys (v : Word) : (s.setI v).keys = s.keys := rfl
@[simp] theorem State.setI_dirty (v : Word) : (s.setI v).dirty = s.dirty := rfl
@[simp] theorem State.setI_awaitingKey (v : Word) : (s.setI v).awaitingKey = s.awaitingKey := rfl
@[simp] theorem State.setI_keyDest (v : Word) : (s.setI v).keyDest = s.keyDest := rfl
@[simp] theorem State.setI_halted (v : Word) : (s.setI v).halted = s.halted := rfl
@[simp] theorem State.setI_faultCause (v : Word) : (s.setI v).faultCause = s.faultCause := rfl
@[simp] theorem State.setI_faultOpcode (v : Word) : (s.setI v).faultOpcode = s.faultOpcode := rfl
@[simp] theorem State.setI_loadOpen (v : Word) : (s.setI v).loadOpen = s.loadOpen := rfl
@[simp] theorem State.setI_rnd (v : Word) : (s.setI v).rnd = s.rnd := rfl
@[simp] theorem State.setI_draws (v : Word) : (s.setI v).draws = s.draws := rfl
@[simp] theorem State.setI_pending (v : Word) : (s.setI v).pending = s.pending := rfl

/-! ### State.setDt -/

@[simp] theorem State.setDt_mem (v : Byte) : (s.setDt v).mem = s.mem := rfl
@[simp] theorem State.setDt_x (v : Byte) : (s.setDt v).x = s.x := rfl
@[simp] theorem State.setDt_I (v : Byte) : (s.setDt v).I = s.I := rfl
@[simp] theorem State.setDt_pc (v : Byte) : (s.setDt v).pc = s.pc := rfl
@[simp] theorem State.setDt_stack (v : Byte) : (s.setDt v).stack = s.stack := rfl
@[simp] theorem State.setDt_sp (v : Byte) : (s.setDt v).sp = s.sp := rfl
@[simp] theorem State.setDt_fb (v : Byte) : (s.setDt v).fb = s.fb := rfl
@[simp] theorem State.setDt_dt (v : Byte) : (s.setDt v).dt = v := rfl
@[simp] theorem State.setDt_st (v : Byte) : (s.setDt v).st = s.st := rfl
@[simp] theorem State.setDt_keys (v : Byte) : (s.setDt v).keys = s.keys := rfl
@[simp] theorem State.setDt_dirty (v : Byte) : (s.setDt v).dirty = s.dirty := rfl
@[simp] theorem State.setDt_awaitingKey (v : Byte) : (s.setDt v).awaitingKey = s.awaitingKey := rfl
@[simp] theorem State.setDt_keyDest (v : Byte) : (s.setDt v).keyDest = s.keyDest := rfl
@[simp] theorem State.setDt_halted (v : Byte) : (s.setDt v).halted = s.halted := rfl
@[simp] theorem State.setDt_faultCause (v : Byte) : (s.setDt v).faultCause = s.faultCause := rfl
@[simp] theorem State.setDt_faultOpcode (v : Byte) : (s.setDt v).faultOpcode = s.faultOpcode := rfl
@[simp] theorem State.setDt_loadOpen (v : Byte) : (s.setDt v).loadOpen = s.loadOpen := rfl
@[simp] theorem State.setDt_rnd (v : Byte) : (s.setDt v).rnd = s.rnd := rfl
@[simp] theorem State.setDt_draws (v : Byte) : (s.setDt v).draws = s.draws := rfl
@[simp] theorem State.setDt_pending (v : Byte) : (s.setDt v).pending = s.pending := rfl

/-! ### State.setSt -/

@[simp] theorem State.setSt_mem (v : Byte) : (s.setSt v).mem = s.mem := rfl
@[simp] theorem State.setSt_x (v : Byte) : (s.setSt v).x = s.x := rfl
@[simp] theorem State.setSt_I (v : Byte) : (s.setSt v).I = s.I := rfl
@[simp] theorem State.setSt_pc (v : Byte) : (s.setSt v).pc = s.pc := rfl
@[simp] theorem State.setSt_stack (v : Byte) : (s.setSt v).stack = s.stack := rfl
@[simp] theorem State.setSt_sp (v : Byte) : (s.setSt v).sp = s.sp := rfl
@[simp] theorem State.setSt_fb (v : Byte) : (s.setSt v).fb = s.fb := rfl
@[simp] theorem State.setSt_dt (v : Byte) : (s.setSt v).dt = s.dt := rfl
@[simp] theorem State.setSt_st (v : Byte) : (s.setSt v).st = v := rfl
@[simp] theorem State.setSt_keys (v : Byte) : (s.setSt v).keys = s.keys := rfl
@[simp] theorem State.setSt_dirty (v : Byte) : (s.setSt v).dirty = s.dirty := rfl
@[simp] theorem State.setSt_awaitingKey (v : Byte) : (s.setSt v).awaitingKey = s.awaitingKey := rfl
@[simp] theorem State.setSt_keyDest (v : Byte) : (s.setSt v).keyDest = s.keyDest := rfl
@[simp] theorem State.setSt_halted (v : Byte) : (s.setSt v).halted = s.halted := rfl
@[simp] theorem State.setSt_faultCause (v : Byte) : (s.setSt v).faultCause = s.faultCause := rfl
@[simp] theorem State.setSt_faultOpcode (v : Byte) : (s.setSt v).faultOpcode = s.faultOpcode := rfl
@[simp] theorem State.setSt_loadOpen (v : Byte) : (s.setSt v).loadOpen = s.loadOpen := rfl
@[simp] theorem State.setSt_rnd (v : Byte) : (s.setSt v).rnd = s.rnd := rfl
@[simp] theorem State.setSt_draws (v : Byte) : (s.setSt v).draws = s.draws := rfl
@[simp] theorem State.setSt_pending (v : Byte) : (s.setSt v).pending = s.pending := rfl

/-! ### State.storeBlock -/

@[simp] theorem State.storeBlock_mem (bs : List Byte) : (s.storeBlock bs).mem = s.mem.storeBytes (s.elemAddr 0) bs := rfl
@[simp] theorem State.storeBlock_x (bs : List Byte) : (s.storeBlock bs).x = s.x := rfl
@[simp] theorem State.storeBlock_I (bs : List Byte) : (s.storeBlock bs).I = s.I := rfl
@[simp] theorem State.storeBlock_pc (bs : List Byte) : (s.storeBlock bs).pc = s.pc := rfl
@[simp] theorem State.storeBlock_stack (bs : List Byte) : (s.storeBlock bs).stack = s.stack := rfl
@[simp] theorem State.storeBlock_sp (bs : List Byte) : (s.storeBlock bs).sp = s.sp := rfl
@[simp] theorem State.storeBlock_fb (bs : List Byte) : (s.storeBlock bs).fb = s.fb := rfl
@[simp] theorem State.storeBlock_dt (bs : List Byte) : (s.storeBlock bs).dt = s.dt := rfl
@[simp] theorem State.storeBlock_st (bs : List Byte) : (s.storeBlock bs).st = s.st := rfl
@[simp] theorem State.storeBlock_keys (bs : List Byte) : (s.storeBlock bs).keys = s.keys := rfl
@[simp] theorem State.storeBlock_dirty (bs : List Byte) : (s.storeBlock bs).dirty = s.dirty := rfl
@[simp] theorem State.storeBlock_awaitingKey (bs : List Byte) : (s.storeBlock bs).awaitingKey = s.awaitingKey := rfl
@[simp] theorem State.storeBlock_keyDest (bs : List Byte) : (s.storeBlock bs).keyDest = s.keyDest := rfl
@[simp] theorem State.storeBlock_halted (bs : List Byte) : (s.storeBlock bs).halted = s.halted := rfl
@[simp] theorem State.storeBlock_faultCause (bs : List Byte) : (s.storeBlock bs).faultCause = s.faultCause := rfl
@[simp] theorem State.storeBlock_faultOpcode (bs : List Byte) : (s.storeBlock bs).faultOpcode = s.faultOpcode := rfl
@[simp] theorem State.storeBlock_loadOpen (bs : List Byte) : (s.storeBlock bs).loadOpen = s.loadOpen := rfl
@[simp] theorem State.storeBlock_rnd (bs : List Byte) : (s.storeBlock bs).rnd = s.rnd := rfl
@[simp] theorem State.storeBlock_draws (bs : List Byte) : (s.storeBlock bs).draws = s.draws := rfl
@[simp] theorem State.storeBlock_pending (bs : List Byte) : (s.storeBlock bs).pending = s.pending := rfl

/-! ### State.loadBlock -/

@[simp] theorem State.loadBlock_x (n : Nat) : (s.loadBlock n).x = s.loadedRegs n := rfl
@[simp] theorem State.loadBlock_mem (n : Nat) : (s.loadBlock n).mem = s.mem := rfl
@[simp] theorem State.loadBlock_I (n : Nat) : (s.loadBlock n).I = s.I := rfl
@[simp] theorem State.loadBlock_pc (n : Nat) : (s.loadBlock n).pc = s.pc := rfl
@[simp] theorem State.loadBlock_stack (n : Nat) : (s.loadBlock n).stack = s.stack := rfl
@[simp] theorem State.loadBlock_sp (n : Nat) : (s.loadBlock n).sp = s.sp := rfl
@[simp] theorem State.loadBlock_fb (n : Nat) : (s.loadBlock n).fb = s.fb := rfl
@[simp] theorem State.loadBlock_dt (n : Nat) : (s.loadBlock n).dt = s.dt := rfl
@[simp] theorem State.loadBlock_st (n : Nat) : (s.loadBlock n).st = s.st := rfl
@[simp] theorem State.loadBlock_keys (n : Nat) : (s.loadBlock n).keys = s.keys := rfl
@[simp] theorem State.loadBlock_dirty (n : Nat) : (s.loadBlock n).dirty = s.dirty := rfl
@[simp] theorem State.loadBlock_awaitingKey (n : Nat) : (s.loadBlock n).awaitingKey = s.awaitingKey := rfl
@[simp] theorem State.loadBlock_keyDest (n : Nat) : (s.loadBlock n).keyDest = s.keyDest := rfl
@[simp] theorem State.loadBlock_halted (n : Nat) : (s.loadBlock n).halted = s.halted := rfl
@[simp] theorem State.loadBlock_faultCause (n : Nat) : (s.loadBlock n).faultCause = s.faultCause := rfl
@[simp] theorem State.loadBlock_faultOpcode (n : Nat) : (s.loadBlock n).faultOpcode = s.faultOpcode := rfl
@[simp] theorem State.loadBlock_loadOpen (n : Nat) : (s.loadBlock n).loadOpen = s.loadOpen := rfl
@[simp] theorem State.loadBlock_rnd (n : Nat) : (s.loadBlock n).rnd = s.rnd := rfl
@[simp] theorem State.loadBlock_draws (n : Nat) : (s.loadBlock n).draws = s.draws := rfl
@[simp] theorem State.loadBlock_pending (n : Nat) : (s.loadBlock n).pending = s.pending := rfl

/-! ### State.endKeyWait -/

@[simp] theorem State.endKeyWait_mem (v : Nibble) : (s.endKeyWait v).mem = s.mem := rfl
@[simp] theorem State.endKeyWait_x (v : Nibble) : (s.endKeyWait v).x = s.x.set s.keyDest.toNat (v.setWidth 8) s.keyDest.isLt := rfl
@[simp] theorem State.endKeyWait_I (v : Nibble) : (s.endKeyWait v).I = s.I := rfl
@[simp] theorem State.endKeyWait_pc (v : Nibble) : (s.endKeyWait v).pc = s.pc := rfl
@[simp] theorem State.endKeyWait_stack (v : Nibble) : (s.endKeyWait v).stack = s.stack := rfl
@[simp] theorem State.endKeyWait_sp (v : Nibble) : (s.endKeyWait v).sp = s.sp := rfl
@[simp] theorem State.endKeyWait_fb (v : Nibble) : (s.endKeyWait v).fb = s.fb := rfl
@[simp] theorem State.endKeyWait_dt (v : Nibble) : (s.endKeyWait v).dt = s.dt := rfl
@[simp] theorem State.endKeyWait_st (v : Nibble) : (s.endKeyWait v).st = s.st := rfl
@[simp] theorem State.endKeyWait_keys (v : Nibble) : (s.endKeyWait v).keys = s.keys := rfl
@[simp] theorem State.endKeyWait_dirty (v : Nibble) : (s.endKeyWait v).dirty = s.dirty := rfl
@[simp] theorem State.endKeyWait_awaitingKey (v : Nibble) : (s.endKeyWait v).awaitingKey = false := rfl
@[simp] theorem State.endKeyWait_keyDest (v : Nibble) : (s.endKeyWait v).keyDest = s.keyDest := rfl
@[simp] theorem State.endKeyWait_halted (v : Nibble) : (s.endKeyWait v).halted = s.halted := rfl
@[simp] theorem State.endKeyWait_faultCause (v : Nibble) : (s.endKeyWait v).faultCause = s.faultCause := rfl
@[simp] theorem State.endKeyWait_faultOpcode (v : Nibble) : (s.endKeyWait v).faultOpcode = s.faultOpcode := rfl
@[simp] theorem State.endKeyWait_loadOpen (v : Nibble) : (s.endKeyWait v).loadOpen = s.loadOpen := rfl
@[simp] theorem State.endKeyWait_rnd (v : Nibble) : (s.endKeyWait v).rnd = s.rnd := rfl
@[simp] theorem State.endKeyWait_draws (v : Nibble) : (s.endKeyWait v).draws = s.draws := rfl
@[simp] theorem State.endKeyWait_pending (v : Nibble) : (s.endKeyWait v).pending = s.pending := rfl

end Sys2Proof.Machine
end

