-- ==== Sys2Proof/Laws/Draw.lean ====
section
/-!
SUPPORT. The framebuffer writer: what drawing a sprite does to each cell and to the collision, in closed form
(44_display.md R132, R133).
-/

namespace Sys2Proof.Machine

/-- One cell after an XOR of the same or of another one. -/
theorem Frame.pixel_xorPixel (fb : Frame) {col row : Nat} (hc : col < 64) (hr : row < 32) (bit : Bool) (col' row' : Nat) :
    (fb.xorPixel col row bit).pixel col' row' =
      (fb.pixel col' row' ^^ (decide (col' = col ∧ row' = row) && bit)) := by
  simp only [Frame.pixel, Frame.xorPixel, Vector.getElem?_setIfInBounds]
  cases bit <;> by_cases h : row = row' <;> simp_all [BitVec.getLsbD_twoPow] <;> grind

/-- A point of a sprite: its row and its column. -/
abbrev Point := Nat × Nat

/-- The points of a sprite of `n` rows, in the order of R132's loops. -/
def spritePoints (n : Nat) : List Point := (List.range n).flatMap fun row => (List.range 8).map fun col => (row, col)

/-- The sprite bit at a point. -/
def pointBit (m : Memory) (a : Nat) (p : Point) : Bool := spriteBit (m.read (a + p.1)) p.2

/-- One point drawn. -/
def drawPoint (m : Memory) (a : Nat) (vx vy : Byte) (c : Frame × Bool) (p : Point) : Frame × Bool :=
  drawPixel vx vy (m.read (a + p.1)) p.1 p.2 c

theorem mem_spritePoints {n : Nat} {p : Point} : p ∈ spritePoints n ↔ p.1 < n ∧ p.2 < 8 := by
  obtain ⟨r, c⟩ := p
  simp [spritePoints]

theorem nodup_spritePoints (n : Nat) : (spritePoints n).Nodup := by
  have : spritePoints n = List.product (List.range n) (List.range 8) := rfl
  rw [this]
  exact List.nodup_range.product List.nodup_range

/-- The two loops of R132 are one loop over the points. -/
theorem drawSprite_eq_foldl (m : Memory) (a : Nat) (vx vy : Byte) (n : Nat) (c : Frame × Bool) :
    drawSprite m a vx vy n c = (spritePoints n).foldl (drawPoint m a vx vy) c := by
  simp only [drawSprite, spritePoints, List.foldl_flatMap, List.foldl_map]
  rfl

/-- Two points of one sprite of at most 32 rows fall on one cell only if they are the same point (R133 (a)). -/
theorem sprite_points_distinct (vx vy : Byte) {p q : Point} (hp : p.1 < 32 ∧ p.2 < 8) (hq : q.1 < 32 ∧ q.2 < 8)
    (hc : spriteCol vx p.2 = spriteCol vx q.2) (hr : spriteRow vy p.1 = spriteRow vy q.1) : p = q := by
  simp only [spriteCol, spriteRow, Config.fbWidth, Config.fbHeight] at hc hr
  exact Prod.ext (by omega) (by omega)

/-- Drawing a list of distinct points: each cell is XORed with the bit of the point on it, if any, and the collision is that of
any point with the framebuffer as it stood before. -/
theorem foldl_drawPoint (m : Memory) (a : Nat) (vx vy : Byte) (ps : List Point) (hd : ps.Nodup)
    (hp : ∀ p ∈ ps, p.1 < 32 ∧ p.2 < 8) (c : Frame × Bool) :
    (∀ col row, (ps.foldl (drawPoint m a vx vy) c).1.pixel col row =
      (c.1.pixel col row ^^ ps.any fun p => decide (col = spriteCol vx p.2 ∧ row = spriteRow vy p.1) && pointBit m a p)) ∧
    (ps.foldl (drawPoint m a vx vy) c).2 =
      (c.2 || ps.any fun p => c.1.pixel (spriteCol vx p.2) (spriteRow vy p.1) && pointBit m a p) := by
  induction ps generalizing c with
  | nil => simp
  | cons p ps ih =>
    rw [List.nodup_cons] at hd
    have hp0 := hp p (List.mem_cons_self ..)
    have hps := fun q hq => hp q (List.mem_cons_of_mem p hq)
    have hcol : spriteCol vx p.2 < 64 := Nat.mod_lt _ (by decide)
    have hrow : spriteRow vy p.1 < 32 := Nat.mod_lt _ (by decide)
    have ne : ∀ q ∈ ps, ¬(spriteCol vx q.2 = spriteCol vx p.2 ∧ spriteRow vy q.1 = spriteRow vy p.1) := by
      rintro q hq ⟨h1, h2⟩
      exact hd.1 (sprite_points_distinct vx vy (hps q hq) hp0 h1 h2 ▸ hq)
    have px : ∀ col row, (drawPoint m a vx vy c p).1.pixel col row =
        (c.1.pixel col row ^^ (decide (col = spriteCol vx p.2 ∧ row = spriteRow vy p.1) && pointBit m a p)) :=
      fun col row => Frame.pixel_xorPixel c.1 hcol hrow _ col row
    obtain ⟨h1, h2⟩ := ih hd.2 hps (drawPoint m a vx vy c p)
    refine ⟨fun col row => ?_, ?_⟩
    · rw [List.foldl_cons, h1, px, List.any_cons]
      by_cases hk : col = spriteCol vx p.2 ∧ row = spriteRow vy p.1
      · have : (ps.any fun q => decide (col = spriteCol vx q.2 ∧ row = spriteRow vy q.1) && pointBit m a q) = false := by
          rw [List.any_eq_false]
          intro q hq
          have := ne q hq
          simp only [Bool.and_eq_true, decide_eq_true_eq]
          rintro ⟨⟨e1, e2⟩, -⟩
          exact this ⟨e1 ▸ hk.1, e2 ▸ hk.2⟩
        rw [this]; simp
      · simp [hk]
    · rw [List.foldl_cons, h2, List.any_cons]
      have e : (ps.any fun q => (drawPoint m a vx vy c p).1.pixel (spriteCol vx q.2) (spriteRow vy q.1) && pointBit m a q) =
          ps.any fun q => c.1.pixel (spriteCol vx q.2) (spriteRow vy q.1) && pointBit m a q := by
        rw [Bool.eq_iff_iff, List.any_eq_true, List.any_eq_true]
        refine exists_congr fun q => and_congr_right fun hq => ?_
        rw [px]; simp [ne q hq]
      rw [e]
      simp [drawPoint, drawPixel, collides, pointBit, Bool.or_assoc]

/-- A sprite of at most 32 rows, cell by cell: a cell a point of the sprite falls on is XORed with its bit. -/
theorem drawSprite_on (m : Memory) (a : Nat) (vx vy : Byte) {n : Nat} (hn : n ≤ 32) (c : Frame × Bool) {r k : Nat}
    (hr : r < n) (hk : k < 8) :
    (drawSprite m a vx vy n c).1.pixel (spriteCol vx k) (spriteRow vy r) =
      (c.1.pixel (spriteCol vx k) (spriteRow vy r) ^^ spriteBit (m.read (a + r)) k) := by
  have hp : ∀ p ∈ spritePoints n, p.1 < 32 ∧ p.2 < 8 := fun p h => by have := mem_spritePoints.1 h; omega
  rw [drawSprite_eq_foldl, (foldl_drawPoint m a vx vy _ (nodup_spritePoints n) hp c).1]
  congr 1
  rw [Bool.eq_iff_iff, List.any_eq_true]
  constructor
  · rintro ⟨q, hq, h⟩
    simp only [Bool.and_eq_true, decide_eq_true_eq] at h
    have := sprite_points_distinct vx vy (p := (r, k)) (q := q) ⟨by omega, hk⟩ (hp q hq) h.1.1 h.1.2
    rw [← this] at h; exact h.2
  · exact fun h => ⟨(r, k), mem_spritePoints.2 ⟨hr, hk⟩, by simp [pointBit, h]⟩

/-- A cell no point of the sprite falls on is left alone. -/
theorem drawSprite_off (m : Memory) (a : Nat) (vx vy : Byte) {n : Nat} (hn : n ≤ 32) (c : Frame × Bool) {col row : Nat}
    (h : ∀ r < n, ∀ k < 8, ¬(col = spriteCol vx k ∧ row = spriteRow vy r)) :
    (drawSprite m a vx vy n c).1.pixel col row = c.1.pixel col row := by
  have hp : ∀ p ∈ spritePoints n, p.1 < 32 ∧ p.2 < 8 := fun p h => by have := mem_spritePoints.1 h; omega
  rw [drawSprite_eq_foldl, (foldl_drawPoint m a vx vy _ (nodup_spritePoints n) hp c).1]
  have : ((spritePoints n).any fun p => decide (col = spriteCol vx p.2 ∧ row = spriteRow vy p.1) && pointBit m a p) = false := by
    rw [List.any_eq_false]
    intro q hq
    have hq := mem_spritePoints.1 hq
    simp [h q.1 hq.1 q.2 hq.2]
  rw [this, Bool.xor_false]

/-- The collision of a sprite: some set cell meets a set bit. -/
theorem drawSprite_collision (m : Memory) (a : Nat) (vx vy : Byte) {n : Nat} (hn : n ≤ 32) (fb : Frame) :
    (drawSprite m a vx vy n (fb, false)).2 = true ↔
      ∃ r < n, ∃ k < 8, fb.pixel (spriteCol vx k) (spriteRow vy r) = true ∧ spriteBit (m.read (a + r)) k = true := by
  have hp : ∀ p ∈ spritePoints n, p.1 < 32 ∧ p.2 < 8 := fun p h => by have := mem_spritePoints.1 h; omega
  rw [drawSprite_eq_foldl, (foldl_drawPoint m a vx vy _ (nodup_spritePoints n) hp (fb, false)).2, Bool.false_or,
    List.any_eq_true]
  constructor
  · rintro ⟨q, hq, h⟩
    have hq := mem_spritePoints.1 hq
    simp only [Bool.and_eq_true] at h
    exact ⟨q.1, hq.1, q.2, hq.2, h.1, h.2⟩
  · rintro ⟨r, hr, k, hk, h1, h2⟩
    exact ⟨(r, k), mem_spritePoints.2 ⟨hr, hk⟩, by simp [pointBit, h1, h2]⟩

end Sys2Proof.Machine
end

