-- ==== Sys2Proof/Laws/Memory.lean ====
section
/-!
SUPPORT. Memory: a read after a write, that a write leaves every other byte alone, and that every operation keeps the
canonical form.
-/

namespace Sys2Proof.Machine

theorem Memory.wfFrom_mono {lo lo' : Nat} {m : Memory} (h : Memory.wfFrom lo m = true) (hl : lo' ≤ lo) :
    Memory.wfFrom lo' m = true := by
  cases m with
  | nil => rfl
  | cons c m =>
    simp only [Memory.wfFrom, Bool.and_eq_true, decide_eq_true_eq] at h ⊢
    exact ⟨⟨⟨hl.trans h.1.1.1, h.1.1.2⟩, h.1.2⟩, h.2⟩

theorem Memory.read_of_lt {lo : Nat} {m : Memory} (h : Memory.wfFrom lo m = true) {a : Nat} (ha : a < lo) :
    m.read a = resetByte a := by
  induction m generalizing lo with
  | nil => rfl
  | cons c m ih =>
    obtain ⟨b, v⟩ := c
    simp only [Memory.wfFrom, Bool.and_eq_true, decide_eq_true_eq] at h
    have : a ≠ b := by omega
    simp only [Memory.read, this, if_false]
    exact ih h.2 (by omega)

/-- Other bytes are left alone by a write, in any list. -/
theorem Memory.read_write_ne (m : Memory) {a b : Nat} (v : Byte) (hb : b ≠ a) : (m.write a v).read b = m.read b := by
  induction m with
  | nil => simp only [Memory.write]; split <;> simp_all [Memory.read]
  | cons c m ih =>
    obtain ⟨c, w⟩ := c
    grind [Memory.write, Memory.read]

theorem Memory.read_write_self {lo : Nat} {m : Memory} (h : Memory.wfFrom lo m = true) (a : Nat) (v : Byte) :
    (m.write a v).read a = v := by
  induction m generalizing lo with
  | nil => simp only [Memory.write]; split <;> simp_all [Memory.read]
  | cons c m ih =>
    obtain ⟨c, w⟩ := c
    simp only [Memory.wfFrom, Bool.and_eq_true, decide_eq_true_eq] at h
    have ih := ih h.2
    have hl := @Memory.read_of_lt _ _ h.2 a
    grind [Memory.write, Memory.read]

theorem Memory.wfFrom_write {lo : Nat} {m : Memory} (h : Memory.wfFrom lo m = true) {a : Nat} (v : Byte)
    (hlo : lo ≤ a) (ha : a < Config.memSize) : Memory.wfFrom lo (m.write a v) = true := by
  induction m generalizing lo with
  | nil =>
    simp only [Memory.write]; split
    · rfl
    · simp_all [Memory.wfFrom]
  | cons c m ih =>
    obtain ⟨c, w⟩ := c
    simp only [Memory.wfFrom, Bool.and_eq_true, decide_eq_true_eq] at h
    obtain ⟨⟨⟨h1, h2⟩, h3⟩, h4⟩ := h
    simp only [Memory.write]
    split
    · split <;> simp_all [Memory.wfFrom]
    · split
      · split
        · exact Memory.wfFrom_mono h4 (by omega)
        · simp_all [Memory.wfFrom]
      · simp_all [Memory.wfFrom]
        exact ih h4 (by omega)

theorem Memory.wf_write {m : Memory} (h : m.wf = true) {a : Nat} (v : Byte) (ha : a < Config.memSize) :
    (m.write a v).wf = true := Memory.wfFrom_write h v (Nat.zero_le a) ha

theorem Memory.wf_storeBytes {m : Memory} (h : m.wf = true) {a : Nat} (bs : List Byte)
    (ha : a + bs.length ≤ Config.memSize) : (m.storeBytes a bs).wf = true := by
  induction bs generalizing m a with
  | nil => exact h
  | cons b bs ih =>
    simp only [List.length_cons] at ha
    exact ih (Memory.wf_write h b (by omega)) (by omega)

theorem Memory.read_storeBytes_outside (m : Memory) {a b : Nat} (bs : List Byte)
    (hb : b < a ∨ a + bs.length ≤ b) : (m.storeBytes a bs).read b = m.read b := by
  induction bs generalizing m a with
  | nil => rfl
  | cons c bs ih =>
    simp only [List.length_cons] at hb
    rw [Memory.storeBytes, ih _ (by omega), Memory.read_write_ne _ _ (by omega)]

theorem Memory.read_storeBytes_inside {m : Memory} (h : m.wf = true) {a i : Nat} {bs : List Byte} (hi : i < bs.length)
    (ha : a + bs.length ≤ Config.memSize) : (m.storeBytes a bs).read (a + i) = bs[i] := by
  induction bs generalizing m a i with
  | nil => simp at hi
  | cons c bs ih =>
    simp only [List.length_cons] at ha hi
    rw [Memory.storeBytes]
    have hw := Memory.wf_write h c (a := a) (by omega)
    cases i with
    | zero =>
      rw [Memory.read_storeBytes_outside _ _ (by omega)]
      exact Memory.read_write_self h a c
    | succ i =>
      have := ih hw (a := a + 1) (i := i) (by omega) (by omega)
      rw [show a + (i + 1) = a + 1 + i by omega, this]; rfl

/-- Memory after reset has the canonical form. -/
theorem Memory.wf_reset : State.reset.mem.wf = true := rfl

/-- A block stored within memory keeps the canonical form. -/
theorem State.wf_storeBlock {s : State} (h : s.mem.wf = true) (bs : List Byte)
    (hb : s.I.toNat + bs.length ≤ Config.memSize) : (s.storeBlock bs).mem.wf = true := Memory.wf_storeBytes h bs hb

/-- LOAD keeps the canonical form, whatever the image. -/
theorem State.wf_load {s : State} (h : s.mem.wf = true) (image : List Byte) : (s.load image).2.mem.wf = true := by
  unfold State.load
  split
  · exact h
  · exact Memory.wf_storeBytes h image (by simp only [Config.progBase, Config.memSize, Config.maxImage] at *; omega)

end Sys2Proof.Machine
end

