-- ==== Sys2Proof/Laws/Registers.lean ====
section
/-!
SUPPORT. Registers, the call stack and the key table: what a read gives after a write, and what a block of loads leaves.
-/

namespace Sys2Proof.Machine

theorem nibble_toNat_inj {i j : Nibble} : i.toNat = j.toNat ↔ i = j := by
  constructor
  · exact BitVec.eq_of_toNat_eq
  · rintro rfl; rfl

/-- A register after a write of the same or of another one. -/
theorem State.reg_setReg (s : State) (i j : Nibble) (v : Byte) :
    (s.setReg i v).reg j = if j = i then v else s.reg j := by
  simp only [State.reg, State.setReg, Vector.getElem_set]
  split <;> split <;> simp_all [nibble_toNat_inj]

@[simp] theorem State.reg_setReg_self (s : State) (i : Nibble) (v : Byte) : (s.setReg i v).reg i = v := by
  simp [State.reg_setReg]

theorem State.reg_setFlag (s : State) (j : Nibble) (c : Bool) :
    (s.setFlag c).reg j = if j = 15 then flagByte c else s.reg j := State.reg_setReg s vf j (flagByte c)

/-- A register depends on the register file alone. -/
theorem State.reg_congr {s t : State} (h : t.x = s.x) (i : Nibble) : t.reg i = s.reg i := by
  simp only [State.reg, h]

theorem State.key_congr {s t : State} (h : t.keys = s.keys) (k : Nibble) : t.key k = s.key k := by
  simp only [State.key, h]

theorem State.stackAt_congr {s t : State} (h : t.stack = s.stack) (i : Nat) : t.stackAt i = s.stackAt i := by
  simp only [State.stackAt, h]

/-- The call stack after a push: the entry at the old `sp` is written, every other one kept. -/
theorem State.stackAt_push (s : State) (v : Word) (hs : s.sp.val < 16) (i : Nat) :
    (s.push v).stackAt i = if i = s.sp.val then v else s.stackAt i := by
  simp only [State.stackAt, State.push_stack, Vector.getElem?_setIfInBounds]
  grind

theorem State.sp_push (s : State) (v : Word) (hs : s.sp.val < 16) : (s.push v).sp.val = s.sp.val + 1 := by
  simp only [State.push_sp, Fin.ofNat]; omega

theorem State.sp_pop (s : State) : s.pop.sp.val = s.sp.val - 1 := by
  simp only [State.pop_sp, Fin.ofNat]; omega

/-- The registers after the loads: the first `n` hold the bytes of the block, the others what they held. -/
theorem State.getElem_loadedRegs (s : State) (n : Nat) (i : Nat) (hi : i < 16) :
    (s.loadedRegs n)[i] = if i < n then s.mem.read (s.elemAddr i) else s.x[i] := by
  induction n with
  | zero => rfl
  | succ n ih => simp only [State.loadedRegs, Vector.getElem_setIfInBounds]; grind

/-- The loads depend on memory, `I` and the register file alone. -/
theorem State.loadedRegs_congr {s t : State} (hm : t.mem = s.mem) (hI : t.I = s.I) (hx : t.x = s.x) (n : Nat) :
    t.loadedRegs n = s.loadedRegs n := by
  induction n with
  | zero => exact hx
  | succ n ih => simp only [State.loadedRegs, State.elemAddr, ih, hm, hI]

theorem State.reg_loadBlock (s : State) (n : Nat) (i : Nibble) :
    (s.loadBlock n).reg i = if i.toNat < n then s.mem.read (s.elemAddr i.toNat) else s.reg i :=
  State.getElem_loadedRegs s n i.toNat i.isLt

@[simp] theorem State.length_regBlock (s : State) (n : Nat) : (s.regBlock n).length = n := by simp [State.regBlock]

theorem State.getElem_regBlock (s : State) (n i : Nat) (hi : i < (s.regBlock n).length) :
    (s.regBlock n)[i] = s.reg (BitVec.ofNat 4 i) := by
  simp [State.regBlock]

@[simp] theorem length_decimalDigits (a : Byte) : (decimalDigits a).length = 3 := rfl

/-- The table of keys after SET_KEY of a machine that is not halted. -/
theorem State.key_setKey (s : State) (k j : Nibble) (p : Bool) (h : s.halted = false) :
    (s.setKey k p).key j = if j = k then p else s.key j := by
  simp only [State.setKey, State.unlessHalted, h, Bool.false_eq_true, if_false, State.key, Vector.getElem_set]
  split <;> split <;> simp_all [nibble_toNat_inj]

end Sys2Proof.Machine
end

