-- ==== Sys2Proof/Laws/Exec.lean ====
section
/-!
SUPPORT. What the meanings that can fault answer, with the condition of 60_exceptions.md R151 as a plain inequality. The other
meanings answer a next state on every path, by definition.
-/

namespace Sys2Proof.Machine

/-- The bound of a data access (20_memory.md R57) as an inequality on exact numbers. -/
theorem State.outOfBounds_iff (s : State) (n : Nat) :
    s.outOfBounds n = true ↔ 1 ≤ n ∧ s.I.toNat + n - 1 > 0xFFF := by
  simp only [State.outOfBounds, Bool.and_eq_true, decide_eq_true_eq]
  simp only [State.elemAddr, Config.topAddr]
  omega

theorem State.inBounds_iff (s : State) (n : Nat) :
    s.outOfBounds n = false ↔ n = 0 ∨ s.I.toNat + n - 1 ≤ 0xFFF := by
  rw [← Bool.not_eq_true, State.outOfBounds_iff]
  omega

theorem exec_ret_fault (s : State) (h : s.sp.val = 0) : exec .ret s = .next (s.raiseFor .stackUnderflow .ret) := by
  have : s.sp = 0 := Fin.ext h
  simp only [exec, execRet, this, if_true]

theorem exec_ret_ok (s : State) (h : s.sp.val ≠ 0) : exec .ret s = .next (s.pop.finish (s.stackAt (s.sp.val - 1))) := by
  have : s.sp ≠ 0 := fun e => h (by rw [e]; rfl)
  simp only [exec, execRet, this, if_false, State.sp_pop]
  rfl

theorem exec_call_fault (nnn : Addr) (s : State) (h : s.sp.val = 16) :
    exec (.call nnn) s = .next (s.raiseFor .stackOverflow (.call nnn)) := by
  have : s.sp = 16 := Fin.ext h
  simp only [exec, execCall, this, if_true]

theorem exec_call_ok (nnn : Addr) (s : State) (h : s.sp.val ≠ 16) :
    exec (.call nnn) s = .next ((s.push (s.pc + 2)).finish (addrWord nnn)) := by
  have : s.sp ≠ 16 := fun e => h (by rw [e]; rfl)
  simp only [exec, execCall, this, if_false]

theorem exec_ldBVx_fault (x : Nibble) (s : State) (h : s.I.toNat + 2 > 0xFFF) :
    exec (.ldBVx x) s = .next (s.raiseFor .memoryBounds (.ldBVx x)) := by
  have : s.outOfBounds 3 = true := (s.outOfBounds_iff 3).2 (by omega)
  simp only [exec, execLdBVx, this, if_true]

theorem exec_ldBVx_ok (x : Nibble) (s : State) (h : s.I.toNat + 2 ≤ 0xFFF) :
    exec (.ldBVx x) s = .next (s.storeBlock (decimalDigits (s.reg x))).advance := by
  have : s.outOfBounds 3 = false := (s.inBounds_iff 3).2 (by omega)
  simp only [exec, execLdBVx, this, Bool.false_eq_true, if_false]

theorem exec_ldMemVx_fault (x : Nibble) (s : State) (h : s.I.toNat + x.toNat > 0xFFF) :
    exec (.ldMemVx x) s = .next (s.raiseFor .memoryBounds (.ldMemVx x)) := by
  have : s.outOfBounds (blockLength x) = true := (s.outOfBounds_iff _).2 (by simp only [blockLength]; omega)
  simp only [exec, execLdMemVx, this, if_true]

theorem exec_ldMemVx_ok (x : Nibble) (s : State) (h : s.I.toNat + x.toNat ≤ 0xFFF) :
    exec (.ldMemVx x) s = .next (s.storeBlock (s.regBlock (x.toNat + 1))).advance := by
  have : s.outOfBounds (blockLength x) = false := (s.inBounds_iff _).2 (by simp only [blockLength]; omega)
  simp only [exec, execLdMemVx, this, Bool.false_eq_true, if_false]
  rfl

theorem exec_ldVxMem_fault (x : Nibble) (s : State) (h : s.I.toNat + x.toNat > 0xFFF) :
    exec (.ldVxMem x) s = .next (s.raiseFor .memoryBounds (.ldVxMem x)) := by
  have : s.outOfBounds (blockLength x) = true := (s.outOfBounds_iff _).2 (by simp only [blockLength]; omega)
  simp only [exec, execLdVxMem, this, if_true]

theorem exec_ldVxMem_ok (x : Nibble) (s : State) (h : s.I.toNat + x.toNat ≤ 0xFFF) :
    exec (.ldVxMem x) s = .next (s.loadBlock (x.toNat + 1)).advance := by
  have : s.outOfBounds (blockLength x) = false := (s.inBounds_iff _).2 (by simp only [blockLength]; omega)
  simp only [exec, execLdVxMem, this, Bool.false_eq_true, if_false]
  rfl

theorem exec_drw_fault (x y n : Nibble) (s : State) (h : 1 ≤ n.toNat ∧ s.I.toNat + n.toNat - 1 > 0xFFF) :
    exec (.drw x y n) s = .next (s.raiseFor .memoryBounds (.drw x y n)) := by
  have : s.outOfBounds n.toNat = true := (s.outOfBounds_iff _).2 h
  simp only [exec, execDrw, this, if_true]

/-- The framebuffer and the collision that `DRW Vx,Vy,n` computes. -/
def State.drawResult (s : State) (x y n : Nibble) : Frame × Bool :=
  drawSprite s.mem s.I.toNat (s.reg x) (s.reg y) n.toNat (s.fb, false)

theorem exec_drw_ok (x y n : Nibble) (s : State) (h : ¬(1 ≤ n.toNat ∧ s.I.toNat + n.toNat - 1 > 0xFFF)) :
    exec (.drw x y n) s = .next ((s.paint (s.drawResult x y n).1).setFlag (s.drawResult x y n).2).advance := by
  have : s.outOfBounds n.toNat = false := (s.inBounds_iff _).2 (by omega)
  simp only [exec, execDrw, this, Bool.false_eq_true, if_false]
  rfl

/-- The key a register of 0 to 15 names. -/
theorem State.keyOf_eq (s : State) {v : Byte} {k : Nibble} (h : v.toNat = k.toNat) : s.keyOf v = s.key k := by
  have : v.setWidth 4 = k := by bv_omega
  rw [State.keyOf, this]

theorem exec_skp_fault (x : Nibble) (s : State) (h : (s.reg x).toNat > 15) :
    exec (.skp x) s = .next (s.raiseFor .keyIndex (.skp x)) := by
  simp only [exec, execSkp, noSuchKey, h, decide_true, if_true]

theorem exec_skp_ok (x : Nibble) (s : State) {k : Nibble} (h : (s.reg x).toNat = k.toNat) :
    exec (.skp x) s = .next (s.skipIf (s.key k)) := by
  have : noSuchKey (s.reg x) = false := by simp only [noSuchKey, decide_eq_false_iff_not]; omega
  simp only [exec, execSkp, this, Bool.false_eq_true, if_false, s.keyOf_eq h]

theorem exec_sknp_fault (x : Nibble) (s : State) (h : (s.reg x).toNat > 15) :
    exec (.sknp x) s = .next (s.raiseFor .keyIndex (.sknp x)) := by
  simp only [exec, execSknp, noSuchKey, h, decide_true, if_true]

theorem exec_sknp_ok (x : Nibble) (s : State) {k : Nibble} (h : (s.reg x).toNat = k.toNat) :
    exec (.sknp x) s = .next (s.skipIf (!s.key k)) := by
  have : noSuchKey (s.reg x) = false := by simp only [noSuchKey, decide_eq_false_iff_not]; omega
  simp only [exec, execSknp, this, Bool.false_eq_true, if_false, s.keyOf_eq h]

/-- A byte of at most 15 is a key number. -/
theorem exists_key_of_le {v : Byte} (h : ¬v.toNat > 15) : ∃ k : Nibble, v.toNat = k.toNat :=
  ⟨BitVec.ofNat 4 v.toNat, by simp only [BitVec.toNat_ofNat]; omega⟩

end Sys2Proof.Machine
end

