-- ==== Sys2Proof/Laws/PerInstr.lean ====
section
/-!
SUPPORT. The family EncodeRow, one lemma per instruction: the instruction's row stands in the opcode table, and the word the
encoder gives it selects that row, whatever its operands are (30_encoding.md R74). The encoder and the table's masks and
patterns are two readings of the spec.
-/

namespace Sys2Proof.Laws.EncodeRow

open Sys2Proof

def Statement (i : Instr) : Prop := i.row ∈ opcodeTable ∧ i.row.selects (encode i) = true

/-- Digit by digit, a row with the mask F000 is selected by its first digit alone. -/
theorem selects_F000 {m : String} {p : Word} (f x y n : Nibble) (h : p = formatXYN f 0 0 0) :
    (OpcodeRow.mk m p 0xF000).selects (formatXYN f x y n) = true := by
  subst h
  simp [OpcodeRow.selects_iff, show (0xF000 : Word) = formatXYN 0xF 0 0 0 from rfl]

/-- With the mask F00F, by its first and last digit. -/
theorem selects_F00F {m : String} {p : Word} (f x y n : Nibble) (h : p = formatXYN f 0 0 n) :
    (OpcodeRow.mk m p 0xF00F).selects (formatXYN f x y n) = true := by
  subst h
  simp [OpcodeRow.selects_iff, show (0xF00F : Word) = formatXYN 0xF 0 0 0xF from rfl]

/-- With the mask F0FF, by all digits but the second. -/
theorem selects_F0FF {m : String} {p : Word} (f x y n : Nibble) (h : p = formatXYN f 0 y n) :
    (OpcodeRow.mk m p 0xF0FF).selects (formatXYN f x y n) = true := by
  subst h
  simp [OpcodeRow.selects_iff, show (0xF0FF : Word) = formatXYN 0xF 0 0xF 0xF from rfl]

theorem nnn_row {m : String} {p : Word} (f : Nibble) (nnn : Addr) (h : p = formatXYN f 0 0 0) :
    (OpcodeRow.mk m p 0xF000).selects (formatNNN f nnn) = true := by
  rw [formatNNN_eq]; exact selects_F000 _ _ _ _ h

theorem xkk_row {m : String} {p : Word} (f x : Nibble) (kk : Byte) (h : p = formatXYN f 0 0 0) :
    (OpcodeRow.mk m p 0xF000).selects (formatXKK f x kk) = true := by
  rw [formatXKK_eq]; exact selects_F000 _ _ _ _ h

theorem x_row {m : String} {p : Word} (f x : Nibble) (kk : Byte) (h : p = formatXKK f 0 kk) :
    (OpcodeRow.mk m p 0xF0FF).selects (formatXKK f x kk) = true := by
  rw [formatXKK_eq] at h ⊢; exact selects_F0FF _ _ _ _ h

/-- Every instruction's row stands in the table. -/
theorem row_mem (i : Instr) : i.row ∈ opcodeTable := by cases i <;> simp only [Instr.row] <;> decide

theorem cls : Statement .cls := ⟨row_mem _, rfl⟩
theorem ret : Statement .ret := ⟨row_mem _, rfl⟩
theorem jp (nnn : Addr) : Statement (.jp nnn) := ⟨row_mem _, nnn_row 0x1 nnn rfl⟩
theorem call (nnn : Addr) : Statement (.call nnn) := ⟨row_mem _, nnn_row 0x2 nnn rfl⟩
theorem seVxKk (x : Nibble) (kk : Byte) : Statement (.seVxKk x kk) := ⟨row_mem _, xkk_row 0x3 x kk rfl⟩
theorem sneVxKk (x : Nibble) (kk : Byte) : Statement (.sneVxKk x kk) := ⟨row_mem _, xkk_row 0x4 x kk rfl⟩
theorem ldVxKk (x : Nibble) (kk : Byte) : Statement (.ldVxKk x kk) := ⟨row_mem _, xkk_row 0x6 x kk rfl⟩
theorem addVxKk (x : Nibble) (kk : Byte) : Statement (.addVxKk x kk) := ⟨row_mem _, xkk_row 0x7 x kk rfl⟩
theorem ldVxVy (x y : Nibble) : Statement (.ldVxVy x y) := ⟨row_mem _, selects_F00F 0x8 x y 0x0 rfl⟩
theorem andVxVy (x y : Nibble) : Statement (.andVxVy x y) := ⟨row_mem _, selects_F00F 0x8 x y 0x2 rfl⟩
theorem addVxVy (x y : Nibble) : Statement (.addVxVy x y) := ⟨row_mem _, selects_F00F 0x8 x y 0x4 rfl⟩
theorem subVxVy (x y : Nibble) : Statement (.subVxVy x y) := ⟨row_mem _, selects_F00F 0x8 x y 0x5 rfl⟩
theorem sneVxVy (x y : Nibble) : Statement (.sneVxVy x y) := ⟨row_mem _, selects_F00F 0x9 x y 0x0 rfl⟩
theorem ldI (nnn : Addr) : Statement (.ldI nnn) := ⟨row_mem _, nnn_row 0xA nnn rfl⟩
theorem rnd (x : Nibble) (kk : Byte) : Statement (.rnd x kk) := ⟨row_mem _, xkk_row 0xC x kk rfl⟩
theorem drw (x y n : Nibble) : Statement (.drw x y n) := ⟨row_mem _, selects_F000 0xD x y n rfl⟩
theorem skp (x : Nibble) : Statement (.skp x) := ⟨row_mem _, x_row 0xE x 0x9E rfl⟩
theorem sknp (x : Nibble) : Statement (.sknp x) := ⟨row_mem _, x_row 0xE x 0xA1 rfl⟩
theorem ldVxDt (x : Nibble) : Statement (.ldVxDt x) := ⟨row_mem _, x_row 0xF x 0x07 rfl⟩
theorem ldVxK (x : Nibble) : Statement (.ldVxK x) := ⟨row_mem _, x_row 0xF x 0x0A rfl⟩
theorem ldDtVx (x : Nibble) : Statement (.ldDtVx x) := ⟨row_mem _, x_row 0xF x 0x15 rfl⟩
theorem ldStVx (x : Nibble) : Statement (.ldStVx x) := ⟨row_mem _, x_row 0xF x 0x18 rfl⟩
theorem addIVx (x : Nibble) : Statement (.addIVx x) := ⟨row_mem _, x_row 0xF x 0x1E rfl⟩
theorem ldFVx (x : Nibble) : Statement (.ldFVx x) := ⟨row_mem _, x_row 0xF x 0x29 rfl⟩
theorem ldBVx (x : Nibble) : Statement (.ldBVx x) := ⟨row_mem _, x_row 0xF x 0x33 rfl⟩
theorem ldMemVx (x : Nibble) : Statement (.ldMemVx x) := ⟨row_mem _, x_row 0xF x 0x55 rfl⟩
theorem ldVxMem (x : Nibble) : Statement (.ldVxMem x) := ⟨row_mem _, x_row 0xF x 0x65 rfl⟩

end Sys2Proof.Laws.EncodeRow
end

