-- ==== Sys2Proof/Machine/ReadPorts.lean ====
section
/-!
DEFINITION. The read ports of 60_exceptions.md R172 that show an item in another form than State holds it: the framebuffer as a
grid of bytes. Every other item of R172 is a field of State or is read by an accessor of Machine/Ops.lean (`Memory.read`,
`State.reg`, `State.stackAt`, `State.key`). Reading is no command and changes nothing.
-/

namespace Sys2Proof.Machine

/-- Entry (row, col) of the framebuffer's read port: `zext_8(fb[row*64 + col])`, so 0 or 1, for `row < 32` and `col < 64`
(R172, 10_state.md R37). -/
def State.framebufferByte (s : State) (row col : Nat) : Byte :=
  (BitVec.ofBool (s.cell (row * Config.fbWidth + col))).setWidth 8

/-- The whole port: 32 rows from the top, 64 bytes each from the left. -/
def State.framebufferGrid (s : State) : List (List Byte) :=
  (List.range Config.fbHeight).map fun row => (List.range Config.fbWidth).map fun col => s.framebufferByte row col

end Sys2Proof.Machine
end

