-- ==== Sys2Proof/Laws/ReadPorts.lean ====
section
/-!
SUPPORT. What the framebuffer's read port shows: each entry is the pixel as a byte 0 or 1, and the grid holds every entry.
-/

namespace Sys2Proof.Machine

/-- The cell at a pixel's row-major index is the pixel (10_state.md R37). -/
theorem State.cell_eq_pixel (s : State) (row : Nat) {col : Nat} (hc : col < 64) :
    s.cell (row * 64 + col) = s.fb.pixel col row := by
  simp only [State.cell, Config.fbWidth]
  rw [show (row * 64 + col) % 64 = col by omega, show (row * 64 + col) / 64 = row by omega]

theorem State.framebufferByte_eq (s : State) (row : Nat) {col : Nat} (hc : col < 64) :
    s.framebufferByte row col = if s.fb.pixel col row then 1 else 0 := by
  rw [State.framebufferByte, Config.fbWidth, s.cell_eq_pixel row hc]
  cases s.fb.pixel col row <;> rfl

theorem State.getElem?_framebufferGrid (s : State) {row col : Nat} (hr : row < 32) (hc : col < 64) :
    (s.framebufferGrid[row]?.getD [])[col]? = some (s.framebufferByte row col) := by
  simp [State.framebufferGrid, Config.fbHeight, Config.fbWidth, hr, hc]

end Sys2Proof.Machine
end

