-- ==== Sys2Proof/Tests/Slice0.lean ====
section
/-!
SUPPORT. Tests on fixed values, taken from 95_test_vectors.md (S and V numbers) and the examples of the rules, and for every
statement with hypotheses a witness that meets them. A test is a check of the model's text, no statement about it.
-/

namespace Sys2Proof.Tests

open Sys2Proof Sys2Proof.Machine

/-! ### Helpers -/

/-- The answer is a next state with the property. -/
def after (r : Result) (p : State → Bool) : Bool :=
  match r with
  | .next t => p t
  | .fault _ => false
  | .refused _ => false

/-- One step that fetches the word `w` leads to a state with the property. -/
def runs (s : State) (w : Nat) (p : State → Bool) : Bool := after (step (s.withFetchWord 16 w)) p

/-- The state after a fault of the word `w`, in full. -/
def faulted (s : State) (code : BitVec 3) (w : Nat) : State :=
  { s with halted := true, faultCause := code, faultOpcode := BitVec.ofNat 16 w, loadOpen := false, rnd := 0 }

/-- One step that fetches the word `w` faults, and nothing else changes. -/
def faults (s : State) (w : Nat) (code : BitVec 3) : Bool :=
  runs s w fun t => t = faulted (s.withFetchWord 16 w) code w

/-- The reset state with some registers set. -/
def regs (l : List (Nibble × Byte)) : State := l.foldl (fun s p => s.setReg p.1 p.2) State.reset

/-- A state with some bytes stored. -/
def bytes (s : State) (a : Nat) (bs : List Byte) : State := { s with mem := s.mem.storeBytes a bs }

/-- `n` bytes of memory. -/
def dump (s : State) (a n : Nat) : List Byte := (List.range n).map fun i => s.mem.read (a + i)

/-- How many cells of the framebuffer are set. -/
def lit (s : State) : Nat := ((List.range 32).map fun r => ((List.range 64).filter fun c => s.fb.pixel c r).length).sum

/-! ### WellFormed: one illegal word for each check, which it refuses (30_encoding.md R76, R77) -/

theorem test_illegal_family0 : legalWord 0x0000 = false ∧ legalWord 0x00E1 = false ∧ legalWord 0x01E0 = false := by decide
theorem test_illegal_family5 : legalWord 0x5120 = false := by decide
theorem test_illegal_family8 : legalWord 0x8121 = false ∧ legalWord 0x8126 = false ∧ legalWord 0x812E = false := by decide
theorem test_illegal_family9 : legalWord 0x9121 = false := by decide
theorem test_illegal_familyB : legalWord 0xB200 = false := by decide
theorem test_illegal_familyE : legalWord 0xE09F = false ∧ legalWord 0xE0A2 = false := by decide
theorem test_illegal_familyF : legalWord 0xF000 = false ∧ legalWord 0xF01F = false ∧ legalWord 0xFFFF = false := by decide
theorem test_legal : legalWord 0x00E0 = true ∧ legalWord 0x9AB0 = true ∧ legalWord 0xFF65 = true := by decide

/-! ### Decoding: a word written out for each constructor from its encoding, digit by digit (30_encoding.md R71, R74) -/

theorem test_decode_control :
    decode 0x00EE = .ok .ret ∧ decode 0x1234 = .ok (.jp 0x234) ∧ decode 0x2ABC = .ok (.call 0xABC) ∧
    decode 0x332A = .ok (.seVxKk 3 0x2A) ∧ decode 0x4A01 = .ok (.sneVxKk 10 1) ∧ decode 0x9AB0 = .ok (.sneVxVy 10 11) := by
  decide

theorem test_decode_alu :
    decode 0x6A3C = .ok (.ldVxKk 10 0x3C) ∧ decode 0x7F01 = .ok (.addVxKk 15 1) ∧ decode 0x8120 = .ok (.ldVxVy 1 2) ∧
    decode 0x8122 = .ok (.andVxVy 1 2) ∧ decode 0x8F14 = .ok (.addVxVy 15 1) ∧ decode 0x81F5 = .ok (.subVxVy 1 15) ∧
    decode 0xC30F = .ok (.rnd 3 0x0F) := by decide

theorem test_decode_index :
    decode 0xA2F0 = .ok (.ldI 0x2F0) ∧ decode 0xF21E = .ok (.addIVx 2) ∧ decode 0xF129 = .ok (.ldFVx 1) ∧
    decode 0xF433 = .ok (.ldBVx 4) ∧ decode 0xF255 = .ok (.ldMemVx 2) ∧ decode 0xF365 = .ok (.ldVxMem 3) := by decide

theorem test_decode_display : decode 0x00E0 = .ok .cls ∧ decode 0xD125 = .ok (.drw 1 2 5) := by decide

theorem test_decode_keypad :
    decode 0xE59E = .ok (.skp 5) ∧ decode 0xE5A1 = .ok (.sknp 5) ∧ decode 0xF207 = .ok (.ldVxDt 2) ∧
    decode 0xFF0A = .ok (.ldVxK 15) ∧ decode 0xF115 = .ok (.ldDtVx 1) ∧ decode 0xF118 = .ok (.ldStVx 1) := by decide

/-- The bytes of R81's examples, and a string too short for an instruction. -/
theorem test_bytes :
    encodeBytes (.drw 1 2 5) = [0xD1, 0x25] ∧ encodeBytes (.ldVxKk 10 0x3C) = [0x6A, 0x3C] ∧
    decodeBytes [0x6A, 0x3C, 0x99] = .ok (.ldVxKk 10 0x3C, [0x99]) ∧ decodeBytes [0x6A] = .error .truncated := by decide

/-- The table's numbering of bits: one word, bit 0 its least significant. -/
theorem test_table_word : decodeTableWord 16 0xD125 = some (.drw 1 2 5) ∧ decodeTableWord 16 0x5120 = none := by decide

/-! ### Fetch, gates, faults (2.1 of the vectors) -/

/-- V1, V5, V10. -/
theorem test_unknown_opcode :
    faults State.reset 0x0000 1 = true ∧ faults State.reset 0x5120 1 = true ∧ faults State.reset 0x812E 1 = true := by decide

/-- V18, V19. -/
theorem test_fetch_bounds :
    after (step { State.reset with pc := 0xFFF }) (fun t => t = faulted { State.reset with pc := 0xFFF } 4 0) = true ∧
    after (step { State.reset with pc := 0x1000 }) (fun t => t = faulted { State.reset with pc := 0x1000 } 4 0) = true := by
  decide

/-- V20. -/
theorem test_fetch_last_word :
    runs { State.reset with pc := 0xFFE } 0x6001 (fun t => t.reg 0 = 1 && t.pc = 0x1000 && !t.halted) = true := by decide

/-- V23: an odd `pc`; the byte at the lower address is the high one. -/
theorem test_fetch_odd :
    after (step (bytes { State.reset with pc := 0x201 } 0x201 [0x6A, 0x3C]))
      (fun t => t.reg 10 = 0x3C && t.pc = 0x203) = true := by decide

/-! ### Control transfer -/

/-- V30. -/
theorem test_ret :
    runs { State.reset with pc := 0x300, sp := 2, stack := (State.reset.stack.set 0 0x204).set 1 0x456 } 0x00EE
      (fun t => t.sp = 1 && t.pc = 0x456 && t.stackAt 1 = 0x456) = true := by decide

/-- V31. -/
theorem test_ret_underflow : faults State.reset 0x00EE 3 = true := by decide

/-- V32, V34. -/
theorem test_jp :
    runs State.reset 0x1234 (fun t => t.pc = 0x234) = true ∧ runs State.reset 0x1FFF (fun t => t.pc = 0xFFF) = true := by decide

/-- V35. -/
theorem test_call :
    runs { State.reset with pc := 0x250, sp := 15 } 0x2ABC
      (fun t => t.stackAt 15 = 0x252 && t.sp = 16 && t.pc = 0xABC) = true := by decide

/-- V36. -/
theorem test_call_overflow : faults { State.reset with pc := 0x250, sp := 16 } 0x2ABC 2 = true := by decide

/-- V40. -/
theorem test_se :
    runs (regs [(3, 0x2A)]) 0x332A (fun t => t.pc = 0x204) = true ∧
    runs (regs [(3, 0x2A)]) 0x332B (fun t => t.pc = 0x202) = true := by decide

/-- V41, V42. -/
theorem test_sne :
    runs State.reset 0x4A00 (fun t => t.pc = 0x202) = true ∧
    runs (regs [(3, 0x2A)]) 0x4300 (fun t => t.pc = 0x204) = true := by decide

/-- V43, V44. -/
theorem test_sne_registers :
    runs (regs [(3, 9)]) 0x9330 (fun t => t.pc = 0x202) = true ∧
    runs (regs [(10, 1), (11, 2)]) 0x9AB0 (fun t => t.pc = 0x204) = true := by decide

/-! ### Registers and arithmetic -/

/-- V50. -/
theorem test_ld_immediate : runs State.reset 0x6FAB (fun t => t.reg 15 = 0xAB && t.pc = 0x202) = true := by decide

/-- S2, V51. -/
theorem test_add_immediate :
    runs (regs [(10, 250)]) 0x7A0A (fun t => t.reg 10 = 4 && t.reg 15 = 0) = true ∧
    runs (regs [(15, 255)]) 0x7F01 (fun t => t.reg 15 = 0) = true := by decide

/-- V53. -/
theorem test_ld_register : runs (regs [(2, 0x77)]) 0x8120 (fun t => t.reg 1 = 0x77 && t.reg 2 = 0x77) = true := by decide

/-- V54. -/
theorem test_and :
    runs (regs [(1, 0xF0), (2, 0x3C), (15, 1)]) 0x8122 (fun t => t.reg 1 = 0x30 && t.reg 15 = 1) = true := by decide

/-- V55, V56. -/
theorem test_add :
    runs (regs [(1, 0xFF)]) 0x8124 (fun t => t.reg 1 = 0xFF && t.reg 15 = 0) = true ∧
    runs (regs [(1, 0xFF), (2, 1)]) 0x8124 (fun t => t.reg 1 = 0 && t.reg 15 = 1) = true := by decide

/-- V57, V58: VF as the destination, VF as an operand. -/
theorem test_add_flag_register :
    runs (regs [(15, 200), (1, 100)]) 0x8F14 (fun t => t.reg 15 = 44) = true ∧
    runs (regs [(1, 255), (15, 1)]) 0x81F4 (fun t => t.reg 1 = 0 && t.reg 15 = 1) = true := by decide

/-- S4 (a), V61: equal operands leave the flag 0. -/
theorem test_sub :
    runs (regs [(1, 5), (2, 10)]) 0x8125 (fun t => t.reg 1 = 251 && t.reg 15 = 0) = true ∧
    runs (regs [(1, 7), (2, 7), (15, 1)]) 0x8125 (fun t => t.reg 1 = 0 && t.reg 15 = 0) = true := by decide

/-- V63, V64. -/
theorem test_sub_flag_register :
    runs (regs [(15, 9), (1, 4)]) 0x8F15 (fun t => t.reg 15 = 5) = true ∧
    runs (regs [(1, 5), (15, 1)]) 0x81F5 (fun t => t.reg 1 = 4 && t.reg 15 = 1) = true := by decide

/-- One STEP with the argument `rnd` that fetches the word `w` leads to a state with the property. -/
def runsRnd (s : State) (w : Nat) (rnd : Byte) (p : State → Bool) : Bool :=
  after (step { s.withFetchWord 16 w with pending := [.step rnd] }) p

/-- V66, V67, V68. -/
theorem test_rnd :
    runsRnd State.reset 0xC30F 0xB7 (fun t => t.reg 3 = 0x07 && t.pc = 0x202) = true ∧
    runsRnd State.reset 0xC300 0xFF (fun t => t.reg 3 = 0 && t.pc = 0x202) = true ∧
    runsRnd State.reset 0xC3FF 0x5A (fun t => t.reg 3 = 0x5A && t.pc = 0x202) = true := by decide

/-- V69: `rnd` does not matter to another instruction. -/
theorem test_rnd_unread :
    runsRnd (regs [(1, 3)]) 0x6205 0xB7 (fun t => t.reg 2 = 5 && t.pc = 0x202 && t.rnd = 0) = true := by decide

/-! ### Index register and memory -/

/-- V70. -/
theorem test_ld_index : runs { State.reset with I := 0xFFFF } 0xAFFF (fun t => t.I = 0x0FFF && t.pc = 0x202) = true := by decide

/-- V71, V72. -/
theorem test_add_index :
    runs { regs [(2, 1)] with I := 0x0FFF } 0xF21E (fun t => t.I = 0x1000 && t.reg 15 = 0) = true ∧
    runs { regs [(2, 2)] with I := 0xFFFF } 0xF21E (fun t => t.I = 0x0001) = true := by decide

/-- V73, V74. -/
theorem test_font_address :
    runs (regs [(1, 255)]) 0xF129 (fun t => t.I = 0x04FB) = true ∧
    runs (regs [(1, 0x1A)]) 0xF129 (fun t => t.I = 0x0082) = true := by decide

/-- V76. -/
theorem test_decimal :
    runs { regs [(4, 255)] with I := 0xFFD } 0xF433 (fun t => dump t 0xFFD 3 = [2, 5, 5] && t.I = 0xFFD) = true := by decide

/-- V77. -/
theorem test_decimal_bounds : faults { regs [(4, 255)] with I := 0xFFE } 0xF433 5 = true := by decide

/-- V78. -/
theorem test_store_block :
    runs { regs [(0, 0x11), (1, 0x22), (2, 0x33), (3, 0x44)] with I := 0x400 } 0xF255
      (fun t => dump t 0x400 4 = [0x11, 0x22, 0x33, 0] && t.I = 0x400) = true := by decide

/-- V80, V82. -/
theorem test_store_block_bounds :
    faults { State.reset with I := 0xFF1 } 0xFF55 5 = true ∧ faults { regs [(0, 0xAA)] with I := 0x1000 } 0xF055 5 = true := by
  decide

/-- V83, V84: the sixteen registers loaded from the font. -/
theorem test_load_block :
    runs (bytes { regs [(3, 0x99)] with I := 0x400 } 0x400 [0x11, 0x22, 0x33, 0x44]) 0xF265
      (fun t => t.reg 0 = 0x11 && t.reg 1 = 0x22 && t.reg 2 = 0x33 && t.reg 3 = 0x99 && t.I = 0x400) = true ∧
    runs State.reset 0xFF65 (fun t => t.x.toList =
      [0xF0, 0x90, 0x90, 0x90, 0xF0, 0x20, 0x60, 0x20, 0x20, 0x70, 0xF0, 0x10, 0xF0, 0x80, 0xF0, 0xF0]) = true := by decide

/-- V85. -/
theorem test_load_block_bounds : faults { State.reset with I := 0xFFF } 0xF165 5 = true := by decide

/-! ### Display -/

/-- S5. -/
theorem test_cls :
    runs { State.reset with fb := (State.reset.fb.xorPixel 0 0 true).xorPixel 63 31 true } 0x00E0
      (fun t => t.fb = State.reset.fb && t.dirty && t.pc = 0x202) = true := by decide

/-- V91: wrap on both axes. V97: the column is the old VF. -/
theorem test_drw_place :
    runs (bytes { regs [(1, 60), (2, 31)] with I := 0x300 } 0x300 [0xFF, 0x81]) 0xD122
      (fun t => [60, 61, 62, 63, 0, 1, 2, 3].all (fun c => t.fb.pixel c 31) && t.fb.pixel 60 0 && t.fb.pixel 3 0 &&
        lit t = 10 && t.reg 15 = 0 && t.dirty) = true ∧
    runs (bytes { regs [(15, 5)] with I := 0x300 } 0x300 [0x80]) 0xDF01
      (fun t => t.fb.pixel 5 0 && lit t = 1 && t.reg 15 = 0) = true := by decide

/-- V96: a collision. V93, V94: no row, no access; a block past the end. -/
theorem test_drw_flag_and_bounds :
    runs (bytes { State.reset with I := 0x300, fb := (State.reset.fb.xorPixel 1 0 true).xorPixel 2 0 true } 0x300 [0xC0])
      0xD011
      (fun t => t.fb.pixel 0 0 && !t.fb.pixel 1 0 && t.fb.pixel 2 0 && lit t = 2 && t.reg 15 = 1 && t.dirty) = true ∧
    runs { regs [(15, 1)] with I := 0xFFFF } 0xD120
      (fun t => t.reg 15 = 0 && t.dirty && !t.halted && t.pc = 0x202) = true ∧
    faults { regs [(15, 1)] with I := 0xFFF } 0xD122 5 = true := by decide

/-- R172: S6 seen through the read port, eight bytes 1 in the top row and 0 everywhere else. -/
theorem test_framebuffer_port :
    runs (bytes { State.reset with I := 0x300 } 0x300 [0xFF]) 0xD011
      (fun t => t.framebufferGrid =
        (List.replicate 8 1 ++ List.replicate 56 0) :: List.replicate 31 (List.replicate 64 0)) = true := by decide

/-! ### Keypad and timers -/

/-- V100, V101. -/
theorem test_skp :
    runs { regs [(5, 10)] with keys := State.reset.keys.set 10 true } 0xE59E (fun t => t.pc = 0x204) = true ∧
    runs (regs [(5, 10)]) 0xE59E (fun t => t.pc = 0x202) = true := by decide

/-- V102, V103. -/
theorem test_sknp :
    runs { regs [(5, 10)] with keys := State.reset.keys.set 10 true } 0xE5A1 (fun t => t.pc = 0x202) = true ∧
    runs (regs [(5, 10)]) 0xE5A1 (fun t => t.pc = 0x204) = true := by decide

/-- V104, V105. -/
theorem test_key_index : faults (regs [(5, 16)]) 0xE59E 6 = true ∧ faults (regs [(5, 255)]) 0xE5A1 6 = true := by decide

/-- V106. -/
theorem test_ld_delay : runs { State.reset with dt := 0x3B } 0xF207 (fun t => t.reg 2 = 0x3B && t.dt = 0x3B) = true := by decide

/-- V107. -/
theorem test_wait_key :
    runs { State.reset with pc := 0x210 } 0xFF0A
      (fun t => t.awaitingKey && t.keyDest = 15 && t.pc = 0x212 &&
        after (issue (.deliverKey 9) t) (fun u => u.reg 15 = 9 && !u.awaitingKey && u.pc = 0x212)) = true := by decide

/-- V108, V109. -/
theorem test_set_timers :
    runs (regs [(1, 60)]) 0xF115 (fun t => t.dt = 60 && t.st = 0) = true ∧
    runs (regs [(1, 5)]) 0xF118 (fun t => t.st = 5 && t.dt = 0) = true := by decide

/-! ### The other commands -/

/-- V120, V121, V123. -/
theorem test_tick :
    after (issue .tick { State.reset with dt := 2 }) (fun t => t.dt = 1 && t.st = 0) = true ∧
    after (issue .tick { State.reset with halted := true, dt := 3 }) (fun t => t.dt = 3) = true := by decide

/-- V126. -/
theorem test_set_key :
    after (issue (.setKey 4 true) { State.reset with awaitingKey := true, keyDest := 3 })
      (fun t => t.key 4 && t.awaitingKey && t.reg 3 = 0) = true := by decide

/-- V127, V128. -/
theorem test_deliver_key :
    after (issue (.deliverKey 2) (regs [(0, 7)])) (fun t => t = regs [(0, 7)]) = true ∧
    after (issue (.deliverKey 15) { regs [(6, 0xEE)] with awaitingKey := true, keyDest := 6 })
      (fun t => t.reg 6 = 0x0F && !t.awaitingKey && t.pc = 0x200) = true := by decide

/-- V131. -/
theorem test_reset :
    after (issue .reset (bytes { regs [(2, 9)] with halted := true, faultCause := 3, sp := 4 } 0x010 [0]))
      (fun t => t = State.reset) = true := by decide

/-- V135. -/
theorem test_load :
    after (issue (.load [0x12, 0x00]) State.reset) (fun t => after (issue (.load [0x60]) t) (fun u =>
      dump u 0x200 2 = [0x60, 0x00])) = true := by decide

/-- R184: LOAD behind a STEP is refused by name. -/
theorem test_load_refused :
    runs State.reset 0x6001 (fun t =>
      match issue (.load [0x12, 0x00]) t with
      | .refused r => r = .loadAfterStep
      | .fault _ => false
      | .next _ => false) = true := by decide

/-- 00_scope.md R6: a pending command comes before STEP, and the oldest one first. -/
theorem test_pending :
    after (step { State.reset with pending := [.setKey 4 true, .reset] })
      (fun t => t.key 4 && t.pending = [.reset] && t.pc = 0x200) = true := by decide

/-! ### Witnesses: for each statement with hypotheses, values that meet all of them, at the boundaries of each clause -/

/-- A halted machine, one that waits for V3, and one in the middle of a run (it meets the invariant). -/
def haltedState : State := faulted State.reset 1 0
def waitingState : State := { State.reset with awaitingKey := true, keyDest := 3, pc := 0x202, loadOpen := false }
def runningState : State := { State.reset with pc := 0x234, loadOpen := false }

theorem witness_EncodeOfDecodedIsTheWord : decode 0xD125 = .ok (.drw 1 2 5) := by decide

theorem witness_DecoderAgreesWithOpcodeTable :
    decode 0xF065 = .ok (.ldVxMem 0) ∧ decode 0xF066 = .error (.unknownOpcode 0xF066) := by decide

theorem witness_StepRunsTheDecodedInstruction :
    let s := ({ State.reset with pc := 0xFFE }).withFetchWord 16 0x6001
    s.pending = [] ∧ s.halted = false ∧ s.awaitingKey = false ∧ s.pc.toNat ≤ 0xFFE ∧
    decode (s.mem.read s.pc.toNat ++ s.mem.read (s.pc.toNat + 1)) = .ok (.ldVxKk 0 1) := by decide

theorem witness_GatedStepIsNoOp : waitingState.awaitingKey = true ∧ haltedState.halted = true := by decide

theorem witness_FetchBoundIsChecked :
    let s := { State.reset with pc := 0xFFF }
    let t := ({ State.reset with pc := 0xFFE }).withFetchWord 16 0x1234
    (s.halted = false ∧ s.awaitingKey = false ∧ s.pc.toNat > 0xFFE) ∧
    (t.halted = false ∧ t.awaitingKey = false ∧ t.pc.toNat ≤ 0xFFE ∧
      decode (t.mem.read t.pc.toNat ++ t.mem.read (t.pc.toNat + 1)) = .ok (.jp 0x234)) := by decide

theorem witness_IllegalWordRaisesUnknownOpcode :
    let s := State.reset.withFetchWord 16 0x812E
    s.halted = false ∧ s.awaitingKey = false ∧ s.pc.toNat ≤ 0xFFE ∧
    (0x812E : Word) = s.mem.read s.pc.toNat ++ s.mem.read (s.pc.toNat + 1) ∧ legalWord 0x812E = false := by decide

/-- V46, the largest `pc`, and each class of R95. -/
theorem witness_ProgramCounterAdvancesByClass :
    let s := { State.reset with pc := 0xFFE }
    let r := { State.reset with sp := 1, stack := State.reset.stack.set 0 0x456 }
    (s.pc.toNat ≤ 0xFFE ∧ ownFault (.seVxKk 0 0) s = none ∧ pcAfter (.seVxKk 0 0) s = 0x1002 ∧
      after (exec (.seVxKk 0 0) s) (fun t => t.pc = 0x1002) = true) ∧
    (ownFault .ret r = none ∧ pcAfter .ret r = 0x456 ∧ after (exec .ret r) (fun t => t.pc = 0x456) = true) ∧
    (ownFault (.call 0x300) s = none ∧ after (exec (.call 0x300) s) (fun t => t.pc = 0x300) = true) ∧
    after (exec .cls s) (fun t => t.pc = 0x1000) = true := by decide

/-- An instruction, a fetched word, a wait, a halt and a fetch out of bounds. -/
theorem witness_OnlyRndDependsOnTheDraw :
    ((∀ x kk, Instr.ldVxKk 2 5 ≠ .rnd x kk) ∧ ∃ t, exec (.ldVxKk 2 5) State.reset = .next t) ∧
    (let s := State.reset.withFetchWord 16 0x6205
     ∀ x kk, decode (s.mem.read s.pc.toNat ++ s.mem.read (s.pc.toNat + 1)) ≠ .ok (.rnd x kk)) ∧
    haltedState.halted = true ∧ waitingState.awaitingKey = true ∧ ({ State.reset with pc := 0xFFF }).pc.toNat > 0xFFE := by
  refine ⟨⟨by simp, _, rfl⟩, ?_, by decide⟩
  have h : decode 0x6205 = .ok (.ldVxKk 2 5) := by decide
  intro s x kk
  rw [show s.mem.read s.pc.toNat ++ s.mem.read (s.pc.toNat + 1) = (0x6205 : Word) by decide, h]
  simp

theorem witness_StepChangesTimersOnlyByTheirInstructions :
    after (stepCommand 0 ((regs [(1, 60)]).withFetchWord 16 0xF115)) (fun t => t.dt ≠ 0) = true ∧
    after (stepCommand 0 ((regs [(1, 5)]).withFetchWord 16 0xF118)) (fun t => t.st ≠ 0) = true ∧
    after (stepCommand 0 { runningState with dirty := true }) (fun t => t.dirty) = true := by decide

theorem witness_OwnFaultIsEntered :
    ownFault .ret State.reset = some .stackUnderflow ∧
    ownFault (.call 0) { State.reset with sp := 16 } = some .stackOverflow ∧
    ownFault (.drw 0 0 15) { State.reset with I := 0xFF2 } = some .memoryBounds ∧
    ownFault (.ldBVx 0) { State.reset with I := 0xFFE } = some .memoryBounds ∧
    ownFault (.ldMemVx 15) { State.reset with I := 0xFF1 } = some .memoryBounds ∧
    ownFault (.ldVxMem 0) { State.reset with I := 0x1000 } = some .memoryBounds ∧
    ownFault (.skp 5) (regs [(5, 16)]) = some .keyIndex ∧ ownFault (.sknp 5) (regs [(5, 16)]) = some .keyIndex := by decide

theorem witness_EveryInstructionExecutes :
    ownFault .ret { State.reset with sp := 1 } = none ∧ ownFault (.call 0) { State.reset with sp := 15 } = none ∧
    ownFault (.drw 0 0 15) { State.reset with I := 0xFF1 } = none ∧
    ownFault (.drw 0 0 0) { State.reset with I := 0xFFFF } = none ∧
    ownFault (.ldBVx 0) { State.reset with I := 0xFFD } = none ∧
    ownFault (.ldMemVx 15) { State.reset with I := 0xFF0 } = none ∧
    ownFault (.ldVxMem 0) { State.reset with I := 0xFFF } = none ∧
    ownFault (.skp 5) (regs [(5, 15)]) = none ∧ ownFault (.sknp 5) (regs [(5, 15)]) = none ∧
    ownFault .cls State.reset = none := by decide

theorem witness_HaltingStepIsPrecise :
    (State.reset.halted = false ∧ after (stepCommand 0 State.reset) (fun t => t.halted && t.faultCause = 1) = true) ∧
    after (stepCommand 0 { runningState with pc := 0xFFF }) (fun t => t.halted && t.faultCause = 4) = true := by decide

theorem witness_HaltedMachineIsFrozen : haltedState.halted = true := by decide

theorem witness_ReturnPopsTheCallStack : 0 < ({ State.reset with sp := 1 }).sp.val ∧ State.reset.sp.val = 0 := by decide

theorem witness_CallPushesReturnAddress :
    ({ State.reset with sp := 15 }).sp.val < 16 ∧ ({ State.reset with sp := 16 }).sp.val = 16 := by decide

theorem witness_CallThenReturnComesBack :
    ∃ t u : State, ({ State.reset with sp := 15 }).sp.val < 16 ∧
      exec (.call 0x300) { State.reset with sp := 15 } = .next t ∧ u.sp = t.sp ∧ u.stack = t.stack ∧ u ≠ t := by
  refine ⟨(({ State.reset with sp := 15 }).push 0x202).finish 0x300,
    { (({ State.reset with sp := 15 }).push 0x202).finish 0x300 with dt := 9 }, by decide, rfl, rfl, rfl, by decide⟩

/-- The flag's two values, at their boundary, for a destination other than VF. -/
theorem witness_AddRegistersSetsCarry :
    (1 : Nibble) ≠ 15 ∧ (let s := regs [(1, 0xFF), (2, 1)]; (s.reg 1).toNat + (s.reg 2).toNat > 255) ∧
    (let s := regs [(1, 0xFF)]; ¬(s.reg 1).toNat + (s.reg 2).toNat > 255) := by decide

theorem witness_SubtractRegistersSetsNotBorrow :
    (1 : Nibble) ≠ 15 ∧ (let s := regs [(1, 8), (2, 7)]; (s.reg 1).toNat > (s.reg 2).toNat) ∧
    (let s := regs [(1, 7), (2, 7)]; ¬(s.reg 1).toNat > (s.reg 2).toNat) := by decide

theorem witness_RandomByteIsMasked :
    let s := ({ State.reset with pc := 0xFFE }).withFetchWord 16 0xC30F
    s.halted = false ∧ s.awaitingKey = false ∧ s.pc.toNat ≤ 0xFFE ∧
    s.mem.read s.pc.toNat ++ s.mem.read (s.pc.toNat + 1) = 0xC#4 ++ (3 : Nibble) ++ (0x0F : Byte) := by decide

theorem witness_DecimalDigitsAreStored :
    State.reset.mem.wf = true ∧ ({ State.reset with I := 0xFFD }).I.toNat + 2 ≤ 0xFFF ∧
    ({ State.reset with I := 0xFFE }).I.toNat + 2 > 0xFFF := by decide

theorem witness_RegisterBlockIsStored :
    State.reset.mem.wf = true ∧ ({ State.reset with I := 0xFF0 }).I.toNat + (15 : Nibble).toNat ≤ 0xFFF ∧
    ({ State.reset with I := 0xFF1 }).I.toNat + (15 : Nibble).toNat > 0xFFF := by decide

theorem witness_RegisterBlockIsLoaded :
    ({ State.reset with I := 0xFFF }).I.toNat + (0 : Nibble).toNat ≤ 0xFFF ∧
    ({ State.reset with I := 0xFFF }).I.toNat + (1 : Nibble).toNat > 0xFFF := by decide

/-- Between the store and the load, V0 is set to another value. -/
theorem witness_BlockStoreThenLoadRestores :
    let s := { State.reset with I := 0xFFF }
    s.mem.wf = true ∧ s.I.toNat + (0 : Nibble).toNat ≤ 0xFFF ∧ ∃ t u : State, exec (.ldMemVx 0) s = .next t ∧ u.I = t.I ∧
      (∀ a, t.I.toNat ≤ a → a ≤ t.I.toNat + (0 : Nibble).toNat → u.mem.read a = t.mem.read a) ∧ u.reg 0 ≠ s.reg 0 :=
  ⟨by decide, by decide, _, (({ State.reset with I := 0xFFF }).storeBlock [0]).advance.setReg 0 7, rfl, rfl,
    fun _ _ _ => rfl, by decide⟩

/-- In bounds with no row, and with 15 rows up to the last byte; one byte past it. For one row drawn at column 60 and row 0: a
sprite bit, a set cell that it meets, and a cell the sprite leaves alone. -/
theorem witness_DrawXorsTheSprite :
    ((0 : Nibble) = 0 ∨ ({ State.reset with I := 0xFFFF }).I.toNat + (0 : Nibble).toNat - 1 ≤ 0xFFF) ∧
    ((15 : Nibble) = 0 ∨ ({ State.reset with I := 0xFF1 }).I.toNat + (15 : Nibble).toNat - 1 ≤ 0xFFF) ∧
    ((15 : Nibble) ≠ 0 ∧ ({ State.reset with I := 0xFF2 }).I.toNat + (15 : Nibble).toNat - 1 > 0xFFF) ∧
    (let s := { regs [(1, 60)] with fb := State.reset.fb.xorPixel 3 0 true }
     (∃ r < (1 : Nibble).toNat, ∃ c < 8,
       s.fb.pixel (((s.reg 1).toNat + c) % 64) (((s.reg 2).toNat + r) % 32) = true ∧ (0x01 : Byte).getLsbD (7 - c) = true) ∧
     (∀ r < (1 : Nibble).toNat, ∀ c < 8,
       ¬(4 = ((s.reg 1).toNat + c) % 64 ∧ 0 = ((s.reg 2).toNat + r) % 32))) := by decide

theorem witness_DrawTwiceRestores :
    let s := { State.reset with I := 0x000 }
    ownFault (.drw 1 2 5) s = none ∧ ∃ t u : State, exec (.drw 1 2 5) s = .next t ∧ u.I = t.I ∧ u.mem = t.mem ∧ u.fb = t.fb ∧
      u.reg 1 = s.reg 1 ∧ u.reg 2 = s.reg 2 ∧ t.reg 15 = 0 :=
  ⟨by decide, _, _, rfl, rfl, rfl, rfl, by decide, by decide, by decide⟩

theorem witness_KeySkipsReadTheKeyTable :
    ((regs [(5, 15)]).reg 5).toNat = (15 : Nibble).toNat ∧ ((regs [(5, 16)]).reg 5).toNat > 15 := by decide

/-- The two cases of a machine that a halt makes deaf: SET_KEY, TICK, CLEAR_DIRTY, DELIVER_KEY and the key wait. -/
theorem witness_HaltedOrNot : runningState.halted = false ∧ haltedState.halted = true := by decide

theorem witness_DeliverKeyEndsTheWait :
    (waitingState.halted = false ∧ waitingState.awaitingKey = true) ∧
    (haltedState.halted = true ∨ haltedState.awaitingKey = false) ∧
    (runningState.halted = true ∨ runningState.awaitingKey = false) := by decide

/-- An image that just fits, one that does not, and a machine that has executed a STEP. -/
theorem witness_LoadIsAllOrNothing :
    State.reset.mem.wf = true ∧ State.reset.loadOpen = true ∧ (List.replicate 3584 (0 : Byte)).length ≤ 3584 ∧
    (List.replicate 3585 (0 : Byte)).length > 3584 ∧ runningState.mem.wf = true ∧ runningState.loadOpen = false := by
  refine ⟨by decide, by decide, ?_, ?_, by decide, by decide⟩ <;> simp only [List.length_replicate] <;> omega

/-- A machine that executes, one that a halt and one that a key wait turns away, and commands that keep the window. -/
theorem witness_LoadWindowLastsFromResetToTheFirstStep :
    (State.reset.halted = false ∧ State.reset.awaitingKey = false ∧ State.reset.loadOpen = true) ∧
    (haltedState.halted = true ∨ haltedState.awaitingKey = true) ∧
    (waitingState.halted = true ∨ waitingState.awaitingKey = true) ∧
    (Command.tick ≠ .reset ∧ (∀ v, Command.tick ≠ .step v) ∧ after (issue .tick State.reset) (fun _ => true) = true) ∧
    (Command.load [0x60] ≠ .reset ∧ (∀ v, Command.load [0x60] ≠ .step v) ∧
      after (issue (.load [0x60]) State.reset) (fun _ => true) = true) := by decide

theorem witness_StepTakesTheOldestCommand :
    State.reset.pending = [] ∧ ({ State.reset with pending := [.tick, .reset] }).pending = .tick :: [.reset] := by decide

theorem witness_KeyWaitLatchTransitions :
    let s := State.reset.withFetchWord 16 0xFF0A
    (s.awaitingKey = false ∧ after (issue (.step 0) s) (fun t => t.awaitingKey) = true ∧ Command.step 0 ≠ .reset) ∧
    (waitingState.awaitingKey = true ∧ after (issue (.deliverKey 9) waitingState) (fun t => !t.awaitingKey) = true ∧
      Command.deliverKey 9 ≠ .reset) := by decide

/-- A state in the middle of a run meets the invariant, and its step answers a next state. -/
theorem witness_EveryStepKeepsTheInvariant : runningState.Inv ∧ after (step runningState) (fun _ => true) = true :=
  ⟨⟨by decide, by decide, by decide, by decide, by decide, by decide, by decide, by decide, by decide⟩, by decide⟩

/-- A state one command away from reset. -/
theorem witness_ReachableStatesMeetTheInvariant : (State.reset.setKey 4 true).Reachable := ⟨[.setKey 4 true], 1, rfl⟩

theorem witness_RegisterInstructionFrame :
    let s := { State.reset with I := 0xFF0 }
    registerDests (.ldVxMem 15) = some [0, 1, 2, 3, 4, 5, 6, 7, 8, 9, 10, 11, 12, 13, 14, 15] ∧
    ownFault (.ldVxMem 15) s = none ∧ after (exec (.ldVxMem 15) s) (fun _ => true) = true ∧
    registerDests (.drw 1 2 5) = some [15] ∧ ownFault (.drw 1 2 5) s = none ∧
    after (exec (.drw 1 2 5) s) (fun _ => true) = true ∧
    registerDests (.addVxVy 1 2) = some [15, 1] ∧ ownFault (.addVxVy 1 2) s = none ∧
    after (exec (.addVxVy 1 2) s) (fun _ => true) = true := by decide

theorem witness_StoringInstructionFrame :
    let s := { State.reset with I := 0xFF0 }
    storeLength (.ldMemVx 15) = some 16 ∧ ownFault (.ldMemVx 15) s = none ∧
    after (exec (.ldMemVx 15) s) (fun _ => true) = true ∧
    storeLength (.ldBVx 4) = some 3 ∧ ownFault (.ldBVx 4) s = none ∧ after (exec (.ldBVx 4) s) (fun _ => true) = true := by
  decide

theorem witness_OtherInstructionFrame :
    let s := { State.reset with sp := 1 }
    registerDests .ret = none ∧ storeLength .ret = none ∧ ownFault .ret s = none ∧
    after (exec .ret s) (fun _ => true) = true ∧
    registerDests (.ldVxK 3) = none ∧ storeLength (.ldVxK 3) = none ∧ ownFault (.ldVxK 3) s = none ∧
    after (exec (.ldVxK 3) s) (fun _ => true) = true := by decide

end Sys2Proof.Tests
end

/-!
SUPPORT. What a meaning answers, said once for all instructions: its own fault, or its effect followed by the last write
`pc <- pcAfter` (40_step_cycle.md R95, 60_exceptions.md R151). The frames and the invariant are read off this equation.
-/

namespace Sys2Proof.Machine

/-! ### The effect of an instruction and its last write -/

/-- What an instruction that does not fault writes before its last write, that of `pc`. JP and the skips write nothing. -/
def effect (i : Instr) (s : State) : State :=
  match i with
  | .cls => s.paint Frame.blank
  | .ret => s.pop
  | .call _ => s.push (s.pc + 2)
  | .ldVxKk x kk => s.setReg x kk
  | .addVxKk x kk => s.setReg x (s.reg x + kk)
  | .ldVxVy x y => s.setReg x (s.reg y)
  | .andVxVy x y => s.setReg x (s.reg x &&& s.reg y)
  | .addVxVy x y => (s.setFlag (carry (s.reg x) (s.reg y))).setReg x (s.reg x + s.reg y)
  | .subVxVy x y => (s.setFlag (notBorrow (s.reg x) (s.reg y))).setReg x (s.reg x - s.reg y)
  | .ldI nnn => s.setI (addrWord nnn)
  | .rnd x kk => s.takeDraw.setReg x (s.rnd &&& kk)
  | .drw x y n => (s.paint (s.drawResult x y n).1).setFlag (s.drawResult x y n).2
  | .ldVxDt x => s.setReg x s.dt
  | .ldVxK x => s.latchKey x
  | .ldDtVx x => s.setDt (s.reg x)
  | .ldStVx x => s.setSt (s.reg x)
  | .addIVx x => s.setI (s.I + byteWord (s.reg x))
  | .ldFVx x => s.setI (BitVec.ofNat 16 ((s.reg x).toNat * Config.glyphBytes))
  | .ldBVx x => s.storeBlock (decimalDigits (s.reg x))
  | .ldMemVx x => s.storeBlock (s.regBlock (x.toNat + 1))
  | .ldVxMem x => s.loadBlock (x.toNat + 1)
  | .jp _ | .seVxKk _ _ | .sneVxKk _ _ | .sneVxVy _ _ | .skp _ | .sknp _ => s

/-- The state an executed instruction leaves. -/
def completed (i : Instr) (s : State) : State := (effect i s).finish (BitVec.ofNat 16 (pcAfter i s))

/-- `pc` plus a constant, on 16 bits, is the exact sum wrapped. -/
theorem ofNat_toNat_add (w : Word) (n : Nat) : BitVec.ofNat 16 (w.toNat + n) = w + BitVec.ofNat 16 n := by
  simp [BitVec.ofNat_add]

@[simp] theorem effect_pc (i : Instr) (s : State) : (effect i s).pc = s.pc := by cases i <;> rfl

/-- A meaning that ends with the common advance (R95). -/
theorem exec_eq_completed_of_advance {i : Instr} {s : State} (he : exec i s = .next (effect i s).advance)
    (hp : pcAfter i s = s.pc.toNat + 2) : exec i s = .next (completed i s) := by
  rw [he, completed, hp, ofNat_toNat_add, ← effect_pc i s]; rfl

/-- A meaning that ends with a skip (R95). -/
theorem exec_eq_completed_of_skip {i : Instr} {s : State} {c : Bool} (he : exec i s = .next ((effect i s).skipIf c))
    (hc : skipCondition i s = some c) : exec i s = .next (completed i s) := by
  have hp : pcAfter i s = if c then s.pc.toNat + 4 else s.pc.toNat + 2 := by
    cases i
    case seVxKk | sneVxKk | sneVxVy | skp | sknp => simp only [pcAfter, hc]; cases c <;> rfl
    all_goals cases hc
  rw [he, completed, hp, State.skipIf, effect_pc]
  cases c <;> simp [ofNat_toNat_add]

/-- The key table at the value of a register that names a key. -/
theorem getElem?_keys_of_toNat_eq (s : State) {v : Byte} {k : Nibble} (h : v.toNat = k.toNat) :
    s.keys[v.toNat]?.getD false = s.key k := by
  rw [h, Vector.getElem?_eq_getElem k.isLt]; rfl

theorem exec_of_ownFault_eq_some {i : Instr} {s : State} {f : FaultCause} (h : ownFault i s = some f) :
    exec i s = .next (s.raiseFor f i) := by
  cases i <;> simp only [ownFault, Option.ite_none_right_eq_some, Option.some.injEq, reduceCtorEq] at h
  case ret => obtain ⟨h, rfl⟩ := h; exact exec_ret_fault s h
  case call nnn => obtain ⟨h, rfl⟩ := h; exact exec_call_fault nnn s h
  case drw x y n => obtain ⟨h, rfl⟩ := h; exact exec_drw_fault x y n s h
  case skp x => obtain ⟨h, rfl⟩ := h; exact exec_skp_fault x s h
  case sknp x => obtain ⟨h, rfl⟩ := h; exact exec_sknp_fault x s h
  case ldBVx x => obtain ⟨h, rfl⟩ := h; exact exec_ldBVx_fault x s h
  case ldMemVx x => obtain ⟨h, rfl⟩ := h; exact exec_ldMemVx_fault x s h
  case ldVxMem x => obtain ⟨h, rfl⟩ := h; exact exec_ldVxMem_fault x s h

theorem exec_of_ownFault_eq_none {i : Instr} {s : State} (h : ownFault i s = none) : exec i s = .next (completed i s) := by
  cases i <;> simp only [ownFault, ite_eq_right_iff, reduceCtorEq, imp_false] at h
  case ret => simpa [completed, effect, pcAfter] using exec_ret_ok s h
  case call nnn => rw [exec_call_ok nnn s h, completed, pcAfter, BitVec.ofNat_toNat]; rfl
  case jp nnn => rw [completed, pcAfter, BitVec.ofNat_toNat]; rfl
  case skp x =>
    obtain ⟨k, hk⟩ := exists_key_of_le h
    exact exec_eq_completed_of_skip (exec_skp_ok x s hk) (by rw [skipCondition, getElem?_keys_of_toNat_eq s hk])
  case sknp x =>
    obtain ⟨k, hk⟩ := exists_key_of_le h
    exact exec_eq_completed_of_skip (exec_sknp_ok x s hk) (by rw [skipCondition, getElem?_keys_of_toNat_eq s hk])
  case seVxKk | sneVxKk | sneVxVy => exact exec_eq_completed_of_skip rfl rfl
  case drw x y n => exact exec_eq_completed_of_advance (exec_drw_ok x y n s h) rfl
  case ldBVx x => exact exec_eq_completed_of_advance (exec_ldBVx_ok x s (by omega)) rfl
  case ldMemVx x => exact exec_eq_completed_of_advance (exec_ldMemVx_ok x s (by omega)) rfl
  case ldVxMem x => exact exec_eq_completed_of_advance (exec_ldVxMem_ok x s (by omega)) rfl
  all_goals exact exec_eq_completed_of_advance rfl rfl

/-- What a meaning can answer: its own fault, or its completion where it has none. -/
theorem exec_cases {i : Instr} {s t : State} (h : exec i s = .next t) :
    (∃ f, ownFault i s = some f ∧ t = s.raiseFor f i) ∨ (ownFault i s = none ∧ t = completed i s) := by
  cases hf : ownFault i s with
  | some f => rw [exec_of_ownFault_eq_some hf] at h; cases h; exact .inl ⟨f, rfl, rfl⟩
  | none => rw [exec_of_ownFault_eq_none hf] at h; cases h; exact .inr ⟨rfl, rfl⟩

end Sys2Proof.Machine

/-!
SUPPORT. The invariant of 10_state.md R41. A STEP that the gates let through leaves the invariant's clauses aside while it
executes (its argument is held), so its proof goes by `State.Executing`, which every path of `cycle` turns back into the invariant.
-/

namespace Sys2Proof.Machine

/-! ### STEP -/

/-- What the invariant says of the machine while a STEP executes: what an effect must keep and a last write or a fault entry
turns into the invariant again. -/
structure State.Executing (s : State) : Prop where
  memory : s.mem.wf = true
  stack : ∀ i < 16, (s.stackAt i).toNat ≤ 0x1000
  running : s.halted = false
  awake : s.awaitingKey = false
  cause : s.faultCause = 0
  opcode : s.faultOpcode = 0

theorem State.Inv.executing {s : State} (h : s.Inv) (hg : s.gated = false) (rnd : Byte) : (s.withRnd rnd).Executing := by
  obtain ⟨hh, ha⟩ : s.halted = false ∧ s.awaitingKey = false := by simpa [State.gated] using hg
  exact ⟨h.memory, h.stack, hh, ha, h.cause.2 hh, h.opcode hh⟩

/-- Every code of R151 is one of 1 to 6. -/
theorem FaultCause.code_bounds (f : FaultCause) : f.code ≠ 0 ∧ f.code ≠ 7 := by cases f <;> decide

/-- A fault entry ends a STEP in a state with the invariant (R154). -/
theorem State.Executing.inv_raise {s : State} (h : s.Executing) (hpc : s.pc.toNat ≤ 0x1002) (f : FaultCause) (info : Word) :
    (s.raise f info).Inv where
  memory := h.memory
  pc := hpc
  stack := h.stack
  gates := by simp [h.awake]
  cause := by simpa using f.code_bounds.1
  code := f.code_bounds.2
  opcode := by simp
  window := by simp
  argument := rfl

@[simp] theorem effect_halted (i : Instr) (s : State) : (effect i s).halted = s.halted := by cases i <;> rfl

@[simp] theorem effect_faultCause (i : Instr) (s : State) : (effect i s).faultCause = s.faultCause := by cases i <;> rfl

@[simp] theorem effect_faultOpcode (i : Instr) (s : State) : (effect i s).faultOpcode = s.faultOpcode := by cases i <;> rfl

/-- The stores stay in memory, since their bound is checked (20_memory.md R57). -/
theorem wf_effect {i : Instr} {s : State} (h : s.mem.wf = true) (hf : ownFault i s = none) :
    (effect i s).mem.wf = true := by
  cases i
  case ldBVx x =>
    refine State.wf_storeBlock h _ ?_
    simp only [ownFault, ite_eq_right_iff, reduceCtorEq, imp_false] at hf
    simp only [length_decimalDigits, Config.memSize]
    omega
  case ldMemVx x =>
    refine State.wf_storeBlock h _ ?_
    simp only [ownFault, ite_eq_right_iff, reduceCtorEq, imp_false] at hf
    simp only [State.length_regBlock, Config.memSize]
    omega
  all_goals exact h

/-- CALL pushes the address behind an instruction that lies in memory; nothing else writes an entry of the stack. -/
theorem stackAt_effect_le {i : Instr} {s : State} (h : ∀ k < 16, (s.stackAt k).toNat ≤ 0x1000)
    (hpc : s.pc.toNat ≤ 0xFFE) (hf : ownFault i s = none) : ∀ k < 16, ((effect i s).stackAt k).toNat ≤ 0x1000 := by
  cases i
  case call nnn =>
    have hsp : s.sp.val < 16 := by
      have := s.sp.isLt
      simp only [ownFault, ite_eq_right_iff, reduceCtorEq, imp_false] at hf
      omega
    have hret : (s.pc + 2).toNat ≤ 0x1000 := by bv_omega
    intro k hk
    rw [effect, State.stackAt_push _ _ hsp]
    split
    · exact hret
    · exact h k hk
  all_goals exact h

/-- R41 (c): behind an instruction that lies in memory, at a 12-bit address, or at an entry of the call stack. -/
theorem pcAfter_le {i : Instr} {s : State} (h : ∀ k < 16, (s.stackAt k).toNat ≤ 0x1000) (hpc : s.pc.toNat ≤ 0xFFE)
    (hf : ownFault i s = none) : pcAfter i s ≤ 0x1002 := by
  cases i
  case jp nnn | call nnn => exact nnn.isLt.le.trans (by decide)
  case ret =>
    have := s.sp.isLt
    simp only [ownFault, ite_eq_right_iff, reduceCtorEq, imp_false] at hf
    exact (h (s.sp.val - 1) (by omega)).trans (by decide)
  all_goals simp only [pcAfter]; split <;> omega

/-- An instruction that executes ends its STEP in a state with the invariant. -/
theorem State.Executing.inv_completed {i : Instr} {s : State} (h : s.Executing) (hpc : s.pc.toNat ≤ 0xFFE)
    (hf : ownFault i s = none) : (completed i s).Inv where
  memory := wf_effect h.memory hf
  pc := by
    rw [completed, State.finish_pc, BitVec.toNat_ofNat]
    exact (Nat.mod_le _ _).trans (pcAfter_le h.stack hpc hf)
  stack := stackAt_effect_le h.stack hpc hf
  gates := by simp [completed, h.running]
  cause := by simp [completed, h.running, h.cause]
  code := by simp [completed, h.cause]
  opcode := by simp [completed, h.opcode]
  window := by simp [completed]
  argument := rfl

/-- What a STEP that the gates let through can answer: a fault entry, or the completion of an instruction that lies in memory. -/
theorem cycle_cases {s t : State} (h : cycle s = .next t) :
    (∃ f info, t = s.raise f info) ∨
    ∃ i, s.pc.toNat ≤ 0xFFE ∧ decode s.fetchWord = .ok i ∧ ownFault i s = none ∧ t = completed i s := by
  unfold cycle at h
  split at h
  case isTrue => cases h; exact .inl ⟨_, _, rfl⟩
  case isFalse hb =>
    split at h
    case h_1 i hd =>
      obtain ⟨f, -, rfl⟩ | ⟨hf, rfl⟩ := exec_cases h
      · exact .inl ⟨f, encode i, rfl⟩
      · exact .inr ⟨i, by simpa [State.fetchOutOfBounds] using hb, hd, hf, rfl⟩
    case h_2 => cases h; exact .inl ⟨_, _, rfl⟩

theorem State.Inv.stepCommand {s t : State} (h : s.Inv) {rnd : Byte} (hs : stepCommand rnd s = .next t) : t.Inv := by
  unfold Machine.stepCommand at hs
  split at hs
  case isTrue => cases hs; exact h
  case isFalse hg =>
    have he := h.executing (Bool.not_eq_true _ ▸ hg) rnd
    obtain ⟨f, info, rfl⟩ | ⟨i, hpc, -, hf, rfl⟩ := cycle_cases hs
    · exact he.inv_raise h.pc f info
    · exact he.inv_completed hpc hf

/-! ### The other commands -/

/-- Settles O54: the reset state lists no byte of memory and every other item is 0 but `pc`. -/
theorem invariantHoldsAtReset : Obligations.InvariantHoldsAtReset where
  memory := Memory.wf_reset
  pc := by decide
  stack := by decide
  gates := by decide
  cause := by decide
  code := by decide
  opcode := fun _ => rfl
  window := fun _ => ⟨rfl, rfl⟩
  argument := rfl

/-- A halted machine ignores the command (R155), so the command's own effect matters only while the machine is not halted. -/
theorem State.Inv.unlessHalted {s t : State} (h : s.Inv) (ht : s.halted = false → t.Inv) : (s.unlessHalted t).Inv := by
  unfold State.unlessHalted
  split
  case isTrue => exact h
  case isFalse hh => exact ht (Bool.not_eq_true _ ▸ hh)

theorem State.Inv.endKeyWait {s : State} (h : s.Inv) (v : Nibble) : (s.endKeyWait v).Inv :=
  { h with gates := by simp, window := fun hw => ⟨(h.window hw).1, rfl⟩ }

theorem State.Inv.deliverKey {s : State} (h : s.Inv) (v : Nibble) : (s.deliverKey v).Inv := by
  refine h.unlessHalted fun _ => ?_
  split
  · exact h.endKeyWait v
  · exact h

theorem State.Inv.load {s : State} (h : s.Inv) (image : List Byte) : (s.load image).2.Inv := by
  have hm := State.wf_load h.memory image
  unfold State.load at hm ⊢
  split
  case isTrue => exact h
  case isFalse hl => rw [if_neg hl] at hm; exact { h with memory := hm }

theorem State.Inv.loadCommand {s t : State} (h : s.Inv) {image : List Byte} (hs : loadCommand image s = .next t) : t.Inv := by
  unfold Machine.loadCommand at hs
  split at hs
  case isTrue => cases hs; exact h.load image
  case isFalse => cases hs

/-- Every command keeps the invariant. TICK, SET_KEY and CLEAR_DIRTY write nothing that it speaks of. -/
theorem State.Inv.issue {s t : State} (h : s.Inv) {c : Command} (hs : issue c s = .next t) : t.Inv := by
  cases c with
  | reset => cases hs; exact { invariantHoldsAtReset with }
  | load image => exact h.loadCommand hs
  | step rnd => exact h.stepCommand hs
  | tick => cases hs; exact h.unlessHalted fun _ => { h with }
  | setKey k pressed => cases hs; exact h.unlessHalted fun _ => { h with }
  | deliverKey v => cases hs; exact h.deliverKey v
  | clearDirty => cases hs; exact h.unlessHalted fun _ => { h with }

/-- Settles O55: by cases on the command that the step takes, which is STEP when none is pending. -/
theorem everyStepKeepsTheInvariant : Obligations.EveryStepKeepsTheInvariant := by
  intro s t h hs
  unfold step nextCommand at hs
  split at hs
  case h_1 => exact h.stepCommand hs
  case h_2 c rest _ =>
    have hrest : ({ s with pending := rest } : State).Inv := { h with }
    exact hrest.issue hs

/-! ### Runs -/

/-- What every step keeps, every run keeps. -/
theorem run_keeps {M : Host.Core} {P : M.State → Prop} (hstep : ∀ s t, P s → M.step s = .next t → P t) (n : Nat)
    {s t : M.State} (hs : P s) (hr : M.run n s = .next t) : P t := by
  induction n generalizing s with
  | zero => cases hr; exact hs
  | succ n ih =>
    unfold Host.Core.run at hr
    split at hr
    case h_1 u hu => exact ih (hstep s u hs hu) hr
    case h_2 | h_3 => cases hr

/-- Settles O56: by induction on the run, from reset with any list of pending commands. -/
theorem reachableStatesMeetTheInvariant : Obligations.ReachableStatesMeetTheInvariant := by
  rintro s ⟨commands, n, hr⟩
  have hreset : ({ State.reset with pending := commands } : State).Inv := { invariantHoldsAtReset with }
  exact run_keeps (M := core) (P := State.Inv) everyStepKeepsTheInvariant n hreset hr

end Sys2Proof.Machine

/-!
SUPPORT. The frames: what an executed instruction leaves unchanged, read off its effect, since the last write touches `pc` and
the model's own fields alone (10_state.md R24, R28 to R38).
-/

namespace Sys2Proof.Machine

theorem eq_completed_of_exec {i : Instr} {s t : State} (hf : ownFault i s = none) (h : exec i s = .next t) :
    t = completed i s := by
  rw [exec_of_ownFault_eq_none hf] at h
  cases h; rfl

@[simp] theorem effect_pending (i : Instr) (s : State) : (effect i s).pending = s.pending := by cases i <;> rfl

/-! ### The instructions that write registers -/

theorem State.reg_setReg_of_ne (s : State) {x r : Nibble} (v : Byte) (h : r ≠ x) : (s.setReg x v).reg r = s.reg r := by
  rw [State.reg_setReg, if_neg h]

section
variable {i : Instr} {dests : List Nibble} (s : State) (h : registerDests i = some dests)
include h

/-- The register writers write the registers, `pc` and, DRW alone, the display. -/
theorem onlyDisplayRegistersPc_completed : OnlyDisplayRegistersPc s (completed i s) := by
  cases i <;> cases h <;> rfl

theorem display_completed (hd : ∀ x y n, i ≠ .drw x y n) :
    (completed i s).fb = s.fb ∧ (completed i s).dirty = s.dirty := by
  cases i <;> cases h
  case drw x y n => exact absurd rfl (hd x y n)
  all_goals exact ⟨rfl, rfl⟩

theorem sameRegistersBut_completed : SameRegistersBut dests s (completed i s) := by
  intro r hr
  cases i <;> cases h
  case addVxVy x y | subVxVy x y =>
    obtain ⟨hvf, hx⟩ : r ≠ vf ∧ r ≠ x := by simpa using hr
    exact (State.reg_setReg_of_ne _ _ hx).trans (State.reg_setReg_of_ne s _ hvf)
  case ldVxMem x =>
    have hlt : ¬r.toNat < x.toNat + 1 := fun hlt =>
      hr (List.mem_map.2 ⟨r.toNat, List.mem_range.2 hlt, by simp⟩)
    exact (s.reg_loadBlock _ r).trans (if_neg hlt)
  all_goals exact State.reg_setReg_of_ne _ _ (List.ne_of_not_mem_cons hr)

end

/-- Settles O57: the effect of each writer is a write of its destinations (and a painting, for DRW). -/
theorem registerInstructionFrame : Obligations.RegisterInstructionFrame := by
  intro i dests s t hd hf ht
  obtain rfl := eq_completed_of_exec hf ht
  have hregs := sameRegistersBut_completed s hd
  have hdisplay := display_completed s hd
  have ho : completed i s = _ := onlyDisplayRegistersPc_completed s hd
  rw [ho]
  exact ⟨hregs, fun _ => rfl, rfl, rfl, rfl, rfl, rfl, rfl, rfl, rfl, rfl, rfl, rfl, effect_pending i s, hdisplay⟩

/-! ### The instructions that store -/

section
variable {i : Instr} {n : Nat} (s : State) (h : storeLength i = some n)
include h

theorem onlyMemoryPc_completed : OnlyMemoryPc s (completed i s) := by cases i <;> cases h <;> rfl

theorem sameMemoryOutside_completed : SameMemoryOutside (s.elemAddr 0) n s (completed i s) := by
  intro b hb
  cases i <;> cases h
  case ldBVx x => exact Memory.read_storeBytes_outside _ _ hb
  case ldMemVx x => exact Memory.read_storeBytes_outside _ _ (by rwa [State.length_regBlock])

end

/-- Settles O58: the effect of both is the store of a block of that length. -/
theorem storingInstructionFrame : Obligations.StoringInstructionFrame := by
  intro i n s t hn hf ht
  obtain rfl := eq_completed_of_exec hf ht
  have hmem := sameMemoryOutside_completed s hn
  have ho : completed i s = _ := onlyMemoryPc_completed s hn
  rw [ho]
  exact ⟨hmem, fun _ _ => rfl, rfl, rfl, rfl, rfl, rfl, rfl, rfl, rfl, rfl, rfl, rfl, rfl, rfl, effect_pending i s⟩

/-! ### Every other instruction: item by item, the instructions that write it -/

section
variable {i : Instr} (s : State)

@[simp] theorem effect_keys : (effect i s).keys = s.keys := by cases i <;> rfl

theorem effect_x (h : registerDests i = none) : (effect i s).x = s.x := by cases i <;> cases h <;> rfl

theorem effect_mem (h : storeLength i = none) : (effect i s).mem = s.mem := by cases i <;> cases h <;> rfl

theorem effect_stack (h : ∀ nnn, i ≠ .call nnn) : (effect i s).stack = s.stack := by
  cases i
  case call nnn => exact absurd rfl (h nnn)
  all_goals rfl

theorem effect_sp (hc : ∀ nnn, i ≠ .call nnn) (hr : i ≠ .ret) : (effect i s).sp = s.sp := by
  cases i
  case call nnn => exact absurd rfl (hc nnn)
  case ret => exact absurd rfl hr
  all_goals rfl

theorem effect_I (hl : ∀ nnn, i ≠ .ldI nnn) (ha : ∀ x, i ≠ .addIVx x) (hg : ∀ x, i ≠ .ldFVx x) :
    (effect i s).I = s.I := by
  cases i
  case ldI nnn => exact absurd rfl (hl nnn)
  case addIVx x => exact absurd rfl (ha x)
  case ldFVx x => exact absurd rfl (hg x)
  all_goals rfl

/-- DRW, the other painter, is among the instructions that write registers. -/
theorem effect_display (h : registerDests i = none) (hc : i ≠ .cls) :
    (effect i s).fb = s.fb ∧ (effect i s).dirty = s.dirty := by
  cases i <;> cases h
  case cls => exact absurd rfl hc
  all_goals exact ⟨rfl, rfl⟩

theorem effect_latch (h : ∀ x, i ≠ .ldVxK x) :
    (effect i s).awaitingKey = s.awaitingKey ∧ (effect i s).keyDest = s.keyDest := by
  cases i
  case ldVxK x => exact absurd rfl (h x)
  all_goals exact ⟨rfl, rfl⟩

theorem effect_dt (h : ∀ x, i ≠ .ldDtVx x) : (effect i s).dt = s.dt := by
  cases i
  case ldDtVx x => exact absurd rfl (h x)
  all_goals rfl

theorem effect_st (h : ∀ x, i ≠ .ldStVx x) : (effect i s).st = s.st := by
  cases i
  case ldStVx x => exact absurd rfl (h x)
  all_goals rfl

end

/-- Settles O59: item by item, the effect writes it only for the instructions named. -/
theorem otherInstructionFrame : Obligations.OtherInstructionFrame := by
  intro i s t hd hn hf ht
  obtain rfl := eq_completed_of_exec hf ht
  exact ⟨fun r _ => State.reg_congr (effect_x s hd) r, fun a => congrArg (·.read a) (effect_mem s hn), effect_keys s,
    effect_halted i s, effect_faultCause i s, effect_faultOpcode i s, effect_pending i s,
    fun hc => ⟨effect_stack s hc, effect_sp s hc⟩, effect_I s, effect_display s hd, effect_latch s, effect_dt s,
    effect_st s⟩

end Sys2Proof.Machine

/-! SUPPORT. The values after RESET (10_state.md R40). -/

namespace Sys2Proof.Machine

/-- The font holds its glyphs one behind the other, top row first (R33). -/
theorem resetByte_glyph : ∀ d < 16, ∀ r < 5, resetByte (5 * d + r) = (glyphs[d]?.getD [])[r]?.getD 0 := by decide

theorem resetByte_of_le {a : Nat} (h : 0x50 ≤ a) : resetByte a = 0 := by
  have hlen : fontRom.length ≤ a := h
  rw [resetByte, List.getD_eq_default _ _ hlen]

theorem pixel_blank (col row : Nat) : Frame.blank.pixel col row = false := by
  by_cases hr : row < 32 <;> simp [Frame.pixel, Frame.blank, hr]

/-- Settles O52: memory lists no byte, so it reads as the font and zeros; the other items are 0 by definition but `pc`. -/
theorem resetStateHasTheResetValues : Obligations.ResetStateHasTheResetValues where
  font := resetByte_glyph
  zeros := fun _ => resetByte_of_le
  x := by decide
  I := rfl
  pc := rfl
  sp := rfl
  stack := by decide
  fb := fun i _ => pixel_blank (i % 64) (i / 64)
  timers := ⟨rfl, rfl⟩
  keys := by decide
  dirty := rfl
  latch := ⟨rfl, rfl⟩
  fault := ⟨rfl, rfl, rfl⟩

end Sys2Proof.Machine

/-!
SUPPORT. The decoder and the encoder are inverse to each other (30_encoding.md R71, R72, R81), and the words that select a row
of the opcode table are the encodings of the instructions of that row (R74).
-/

namespace Sys2Proof

/-! ### Decoding an encoding -/

@[simp] theorem decode_encode (i : Instr) : decode (encode i) = .ok i := by
  cases i
  case cls | ret => rfl
  case ldVxVy | andVxVy | addVxVy | subVxVy => simp [encode, decode, decodeXY]
  case ldVxDt | ldVxK | ldDtVx | ldStVx | addIVx | ldFVx | ldBVx | ldMemVx | ldVxMem => simp [encode, decode, decodeX]
  all_goals simp [encode, decode]

/-- Settles O1: the two bytes make the word again, and the decoder reads the instruction from it. -/
theorem decodeOfEncodeIsTheInstruction : Obligations.DecodeOfEncodeIsTheInstruction := by
  intro i rest
  simp only [encodeBytes, List.cons_append, List.nil_append, decodeBytes, wordOfBytes_bytes, decode_encode]

/-! ### Encoding what was decoded -/

section
variable {op : Word} {fam n : Nibble} {kk : Byte}

theorem formatNNN_of_fields (hf : fieldFam op = fam) : formatNNN fam (fieldNNN op) = op := by
  rw [← hf, formatNNN_fields]

theorem formatXKK_of_fields (hf : fieldFam op = fam) (hk : fieldKK op = kk) : formatXKK fam (fieldX op) kk = op := by
  rw [← hf, ← hk, formatXKK_fields]

theorem formatXYN_of_fields (hf : fieldFam op = fam) (hn : fieldN op = n) :
    formatXYN fam (fieldX op) (fieldY op) n = op := by
  rw [← hf, ← hn, formatXYN_fields]

end

/-- What the decoder can answer for a word: an instruction that the word encodes, or a rejection that names the word. -/
def Answers (op : Word) : Except Reject Instr → Prop
  | .ok i => encode i = op
  | .error e => e = .unknownOpcode op

section
variable {op : Word}

theorem answers_decodeXY (hf : fieldFam op = 0x8) : Answers op (decodeXY op) := by
  unfold decodeXY
  split
  case h_5 => exact rfl
  all_goals exact formatXYN_of_fields hf ‹_›

theorem answers_decodeX (hf : fieldFam op = 0xF) : Answers op (decodeX op) := by
  unfold decodeX
  split
  case h_10 => exact rfl
  all_goals exact formatXKK_of_fields hf ‹_›

theorem answers_decode (op : Word) : Answers op (decode op) := by
  unfold decode
  split
  next =>
    split_ifs with h₁ h₂
    · exact h₁.symm
    · exact h₂.symm
    · exact rfl
  next hf => exact formatNNN_of_fields hf
  next hf => exact formatNNN_of_fields hf
  next hf => exact formatXKK_of_fields hf rfl
  next hf => exact formatXKK_of_fields hf rfl
  next => exact rfl
  next hf => exact formatXKK_of_fields hf rfl
  next hf => exact formatXKK_of_fields hf rfl
  next hf => exact answers_decodeXY hf
  next hf =>
    split_ifs with hn
    · exact formatXYN_of_fields hf hn
    · exact rfl
  next hf => exact formatNNN_of_fields hf
  next => exact rfl
  next hf => exact formatXKK_of_fields hf rfl
  next hf => exact formatXYN_of_fields hf rfl
  next hf =>
    split_ifs with h₁ h₂
    · exact formatXKK_of_fields hf h₁
    · exact formatXKK_of_fields hf h₂
    · exact rfl
  next h0 h1 h2 h3 h4 h5 h6 h7 h8 h9 h10 h11 h12 h13 h14 =>
    exact answers_decodeX (family_last h0 h1 h2 h3 h4 h5 h6 h7 h8 h9 h10 h11 h12 h13 h14)

theorem encode_of_decode_eq_ok {i : Instr} (h : decode op = .ok i) : encode i = op := by
  have ha := answers_decode op
  rwa [h] at ha

theorem eq_unknownOpcode_of_decode_eq_error {e : Reject} (h : decode op = .error e) : e = .unknownOpcode op := by
  have ha := answers_decode op
  rwa [h] at ha

end

/-- Settles O2: in every arm of the decoder the fields it reads are those the encoder puts together. -/
theorem encodeOfDecodedIsTheWord : Obligations.EncodeOfDecodedIsTheWord := fun _ _ => encode_of_decode_eq_ok

/-! ### The rows of the opcode table -/

/-- Every word that selects the row encodes an instruction of the row. -/
def OpcodeRow.Covered (r : OpcodeRow) : Prop := ∀ op, r.selects op = true → ∃ i, i.row = r ∧ encode i = op

section
variable {m : String} {p mask op : Word} {fam n : Nibble} {kk : Byte}

/-- A row fixes the bits of a field whose mask is all ones. -/
theorem extractLsb'_of_selects (start len : Nat) (h : (OpcodeRow.mk m p mask).selects op = true)
    (hm : mask.extractLsb' start len = BitVec.allOnes len) : op.extractLsb' start len = p.extractLsb' start len := by
  have hp : op &&& mask = p := of_decide_eq_true h
  rw [← hp, BitVec.extractLsb'_and, hm, BitVec.and_allOnes]

theorem fieldFam_of_selects (h : (OpcodeRow.mk m p mask).selects op = true) (hm : fieldFam mask = 0xF)
    (hp : fieldFam p = fam) : fieldFam op = fam :=
  (extractLsb'_of_selects 12 4 h hm).trans hp

theorem fieldN_of_selects (h : (OpcodeRow.mk m p mask).selects op = true) (hm : fieldN mask = 0xF)
    (hp : fieldN p = n) : fieldN op = n :=
  (extractLsb'_of_selects 0 4 h hm).trans hp

theorem fieldKK_of_selects (h : (OpcodeRow.mk m p mask).selects op = true) (hm : fieldKK mask = 0xFF)
    (hp : fieldKK p = kk) : fieldKK op = kk :=
  (extractLsb'_of_selects 0 8 h hm).trans hp

theorem eq_of_selects (h : (OpcodeRow.mk m p 0xFFFF).selects op = true) : p = op := by
  have hp : op &&& BitVec.allOnes 16 = p := of_decide_eq_true h
  rw [← hp, BitVec.and_allOnes]

theorem formatNNN_of_selects (h : (OpcodeRow.mk m p 0xF000).selects op = true) (hf : fieldFam p = fam) :
    formatNNN fam (fieldNNN op) = op :=
  formatNNN_of_fields (fieldFam_of_selects h rfl hf)

theorem formatXKK_of_selects (h : (OpcodeRow.mk m p 0xF000).selects op = true) (hf : fieldFam p = fam) :
    formatXKK fam (fieldX op) (fieldKK op) = op :=
  formatXKK_of_fields (fieldFam_of_selects h rfl hf) rfl

theorem formatXYN_of_selects (h : (OpcodeRow.mk m p 0xF000).selects op = true) (hf : fieldFam p = fam) :
    formatXYN fam (fieldX op) (fieldY op) (fieldN op) = op :=
  formatXYN_of_fields (fieldFam_of_selects h rfl hf) rfl

/-- Format XY (R72): the low nibble is fixed too. -/
theorem formatXY_of_selects (h : (OpcodeRow.mk m p 0xF00F).selects op = true) (hf : fieldFam p = fam)
    (hn : fieldN p = n) : formatXYN fam (fieldX op) (fieldY op) n = op :=
  formatXYN_of_fields (fieldFam_of_selects h rfl hf) (fieldN_of_selects h rfl hn)

/-- Format X (R72): the low byte is fixed too. -/
theorem formatX_of_selects (h : (OpcodeRow.mk m p 0xF0FF).selects op = true) (hf : fieldFam p = fam)
    (hk : fieldKK p = kk) : formatXKK fam (fieldX op) kk = op :=
  formatXKK_of_fields (fieldFam_of_selects h rfl hf) (fieldKK_of_selects h rfl hk)

end

theorem covered_controlRows : ∀ r ∈ controlRows, r.Covered := by
  simp only [controlRows, List.forall_mem_cons]
  exact ⟨fun _ h => ⟨.ret, rfl, eq_of_selects h⟩,
    fun _ h => ⟨.jp _, rfl, formatNNN_of_selects h rfl⟩,
    fun _ h => ⟨.call _, rfl, formatNNN_of_selects h rfl⟩,
    fun _ h => ⟨.seVxKk _ _, rfl, formatXKK_of_selects h rfl⟩,
    fun _ h => ⟨.sneVxKk _ _, rfl, formatXKK_of_selects h rfl⟩,
    fun _ h => ⟨.sneVxVy _ _, rfl, formatXY_of_selects h rfl rfl⟩,
    List.forall_mem_nil _⟩

theorem covered_aluRows : ∀ r ∈ aluRows, r.Covered := by
  simp only [aluRows, List.forall_mem_cons]
  exact ⟨fun _ h => ⟨.ldVxKk _ _, rfl, formatXKK_of_selects h rfl⟩,
    fun _ h => ⟨.addVxKk _ _, rfl, formatXKK_of_selects h rfl⟩,
    fun _ h => ⟨.ldVxVy _ _, rfl, formatXY_of_selects h rfl rfl⟩,
    fun _ h => ⟨.andVxVy _ _, rfl, formatXY_of_selects h rfl rfl⟩,
    fun _ h => ⟨.addVxVy _ _, rfl, formatXY_of_selects h rfl rfl⟩,
    fun _ h => ⟨.subVxVy _ _, rfl, formatXY_of_selects h rfl rfl⟩,
    fun _ h => ⟨.rnd _ _, rfl, formatXKK_of_selects h rfl⟩,
    List.forall_mem_nil _⟩

theorem covered_indexRows : ∀ r ∈ indexRows, r.Covered := by
  simp only [indexRows, List.forall_mem_cons]
  exact ⟨fun _ h => ⟨.ldI _, rfl, formatNNN_of_selects h rfl⟩,
    fun _ h => ⟨.addIVx _, rfl, formatX_of_selects h rfl rfl⟩,
    fun _ h => ⟨.ldFVx _, rfl, formatX_of_selects h rfl rfl⟩,
    fun _ h => ⟨.ldBVx _, rfl, formatX_of_selects h rfl rfl⟩,
    fun _ h => ⟨.ldMemVx _, rfl, formatX_of_selects h rfl rfl⟩,
    fun _ h => ⟨.ldVxMem _, rfl, formatX_of_selects h rfl rfl⟩,
    List.forall_mem_nil _⟩

theorem covered_displayRows : ∀ r ∈ displayRows, r.Covered := by
  simp only [displayRows, List.forall_mem_cons]
  exact ⟨fun _ h => ⟨.cls, rfl, eq_of_selects h⟩,
    fun _ h => ⟨.drw _ _ _, rfl, formatXYN_of_selects h rfl⟩,
    List.forall_mem_nil _⟩

theorem covered_keypadRows : ∀ r ∈ keypadRows, r.Covered := by
  simp only [keypadRows, List.forall_mem_cons]
  exact ⟨fun _ h => ⟨.skp _, rfl, formatX_of_selects h rfl rfl⟩,
    fun _ h => ⟨.sknp _, rfl, formatX_of_selects h rfl rfl⟩,
    fun _ h => ⟨.ldVxDt _, rfl, formatX_of_selects h rfl rfl⟩,
    fun _ h => ⟨.ldVxK _, rfl, formatX_of_selects h rfl rfl⟩,
    fun _ h => ⟨.ldDtVx _, rfl, formatX_of_selects h rfl rfl⟩,
    fun _ h => ⟨.ldStVx _, rfl, formatX_of_selects h rfl rfl⟩,
    List.forall_mem_nil _⟩

theorem covered_opcodeTable : ∀ r ∈ opcodeTable, r.Covered := by
  simp only [opcodeTable, List.forall_mem_append]
  exact ⟨⟨⟨⟨covered_controlRows, covered_aluRows⟩, covered_indexRows⟩, covered_displayRows⟩, covered_keypadRows⟩

open Laws.EncodeRow in
theorem row_mem_and_selects_encode : ∀ i : Instr, i.row ∈ opcodeTable ∧ i.row.selects (encode i) = true
  | .cls => cls
  | .ret => ret
  | .jp nnn => jp nnn
  | .call nnn => call nnn
  | .seVxKk x kk => seVxKk x kk
  | .sneVxKk x kk => sneVxKk x kk
  | .ldVxKk x kk => ldVxKk x kk
  | .addVxKk x kk => addVxKk x kk
  | .ldVxVy x y => ldVxVy x y
  | .andVxVy x y => andVxVy x y
  | .addVxVy x y => addVxVy x y
  | .subVxVy x y => subVxVy x y
  | .sneVxVy x y => sneVxVy x y
  | .ldI nnn => ldI nnn
  | .rnd x kk => rnd x kk
  | .drw x y n => drw x y n
  | .skp x => skp x
  | .sknp x => sknp x
  | .ldVxDt x => ldVxDt x
  | .ldVxK x => ldVxK x
  | .ldDtVx x => ldDtVx x
  | .ldStVx x => ldStVx x
  | .addIVx x => addIVx x
  | .ldFVx x => ldFVx x
  | .ldBVx x => ldBVx x
  | .ldMemVx x => ldMemVx x
  | .ldVxMem x => ldVxMem x

/-- A word selects a row exactly when the decoder reads an instruction of that row from it. -/
theorem selects_iff_decode {r : OpcodeRow} (hr : r ∈ opcodeTable) (op : Word) :
    r.selects op = true ↔ ∃ i, decode op = .ok i ∧ i.row = r := by
  constructor
  · intro h
    obtain ⟨i, hrow, rfl⟩ := covered_opcodeTable r hr op h
    exact ⟨i, decode_encode i, hrow⟩
  · rintro ⟨i, hi, rfl⟩
    rw [← encode_of_decode_eq_ok hi]
    exact (row_mem_and_selects_encode i).2

/-- Settles O3: the instruction read from a word is unique, so its row is; a word that is rejected is read as none. -/
theorem decoderAgreesWithOpcodeTable : Obligations.DecoderAgreesWithOpcodeTable := by
  refine ⟨rfl, fun op => ?_⟩
  split
  next i hi =>
    refine ⟨(row_mem_and_selects_encode i).1, fun r hr => ?_⟩
    rw [selects_iff_decode hr, hi]
    simp [eq_comm]
  next e he =>
    refine ⟨eq_unknownOpcode_of_decode_eq_error he, fun r hr => ?_⟩
    rw [← Bool.not_eq_true, selects_iff_decode hr, he]
    simp

/-- Settles O5: a closed fact about thirteen words. -/
theorem sampleWordsDecode : Obligations.SampleWordsDecode := by
  unfold Obligations.SampleWordsDecode
  decide

end Sys2Proof

/-!
SUPPORT. STEP path by path (40_step_cycle.md R90 to R96): the gates, the fetch bound and the decoder around `exec`, and what each
path leaves.
-/

namespace Sys2Proof.Machine

/-! ### The paths of STEP -/

section
variable {s : State}

theorem stepCommand_of_gated (hg : s.gated = true) (v : Byte) : stepCommand v s = .next s := if_pos hg

theorem stepCommand_of_not_gated (hg : s.gated = false) (v : Byte) : stepCommand v s = cycle (s.withRnd v) :=
  if_neg (Bool.eq_false_iff.1 hg)

theorem State.gated_iff : s.gated = true ↔ s.halted = true ∨ s.awaitingKey = true := Bool.or_eq_true_iff

theorem State.gated_eq_false (hh : s.halted = false) (ha : s.awaitingKey = false) : s.gated = false := by
  rw [State.gated, hh, ha]; rfl

theorem cycle_of_fetchOutOfBounds (hpc : s.pc.toNat > 0xFFE) : cycle s = .next (s.raise .fetchBounds 0) :=
  if_pos (decide_eq_true hpc)

theorem cycle_of_decode_eq_ok {i : Instr} (hpc : s.pc.toNat ≤ 0xFFE) (hd : decode s.fetchWord = .ok i) :
    cycle s = exec i s := by
  have hb : s.fetchOutOfBounds = false := decide_eq_false (Nat.not_lt.2 hpc)
  simp only [cycle, hb, hd, Bool.false_eq_true, if_false]

theorem cycle_of_decode_eq_error {e : Reject} (hpc : s.pc.toNat ≤ 0xFFE) (hd : decode s.fetchWord = .error e) :
    cycle s = .next (s.raise .unknownOpcode s.fetchWord) := by
  have hb : s.fetchOutOfBounds = false := decide_eq_false (Nat.not_lt.2 hpc)
  simp only [cycle, hb, hd, Bool.false_eq_true, if_false]

theorem step_of_pending_eq_nil (hp : s.pending = []) : step s = stepCommand (Config.rndDraw s.draws) s := by
  rw [step, nextCommand, hp]

end

/-- Settles O7: each of the two items closes the gates. -/
theorem gatedStepIsNoOp : Obligations.GatedStepIsNoOp :=
  fun _ v h => stepCommand_of_gated (State.gated_iff.2 h.symm) v

/-- Settles O6: with the gates open and the word in memory, `exec` is all that is left of STEP. -/
theorem stepRunsTheDecodedInstruction : Obligations.StepRunsTheDecodedInstruction := by
  intro s i hh ha hpc hd
  have hstep (v : Byte) : stepCommand v s = exec i (s.withRnd v) := by
    rw [stepCommand_of_not_gated (State.gated_eq_false hh ha)]
    exact cycle_of_decode_eq_ok hpc hd
  exact ⟨hstep, fun hp => (step_of_pending_eq_nil hp).trans (hstep _)⟩

/-! ### Illegal words -/

/-- The table and the decoder give a meaning to the same words (30_encoding.md R76). -/
theorem legalWord_iff_decode (op : Word) : legalWord op = true ↔ ∃ i, decode op = .ok i := by
  rw [legalWord, List.any_eq_true]
  constructor
  · rintro ⟨r, hr, hs⟩
    obtain ⟨i, hi, -⟩ := (selects_iff_decode hr op).1 hs
    exact ⟨i, hi⟩
  · rintro ⟨i, hi⟩
    have hr := (row_mem_and_selects_encode i).1
    exact ⟨i.row, hr, (selects_iff_decode hr op).2 ⟨i, hi, rfl⟩⟩

theorem decode_eq_error_of_not_legalWord {op : Word} (h : legalWord op = false) : ∃ e, decode op = .error e := by
  cases hd : decode op with
  | ok i => rw [(legalWord_iff_decode op).2 ⟨i, hd⟩] at h; cases h
  | error e => exact ⟨e, rfl⟩

/-- A fault entry during STEP(v), seen from the state before it (60_exceptions.md R154). -/
theorem faultEntered_raise (s : State) (v : Byte) (f : FaultCause) (info : Word) :
    FaultEntered f.code info s ((s.withRnd v).raise f info) := ⟨rfl, rfl, rfl, rfl⟩

/-- Settles O9: the decoder rejects the word, since the table does. -/
theorem illegalWordRaisesUnknownOpcode : Obligations.IllegalWordRaisesUnknownOpcode := by
  rintro s v _ hh ha hpc rfl hw
  obtain ⟨e, he⟩ := decode_eq_error_of_not_legalWord hw
  refine ⟨_, ?_, faultEntered_raise s v .unknownOpcode _⟩
  rw [stepCommand_of_not_gated (State.gated_eq_false hh ha)]
  exact cycle_of_decode_eq_error hpc he

/-! ### The program counter -/

theorem pcAfter_lt {i : Instr} {s : State} (hpc : s.pc.toNat ≤ 0xFFE) : pcAfter i s < 2 ^ 16 := by
  cases i
  case jp nnn | call nnn => exact nnn.isLt.trans (by decide)
  case ret => exact (s.stackAt _).isLt
  all_goals simp only [pcAfter]; split <;> omega

/-- Settles O10: the last write is that of `pcAfter`, which 16 bits hold. -/
theorem programCounterAdvancesByClass : Obligations.ProgramCounterAdvancesByClass := by
  intro i s t hpc hf ht
  obtain rfl := eq_completed_of_exec hf ht
  rw [completed, State.finish_pc, BitVec.toNat_ofNat, Nat.mod_eq_of_lt (pcAfter_lt hpc)]

/-! ### The argument of STEP -/

/-- No fault condition reads the argument of STEP or the count of RNDs. -/
theorem ownFault_draw (i : Instr) (s : State) (v : Byte) (d : Nat) :
    ownFault i { s with rnd := v, draws := d } = ownFault i s := by cases i <;> rfl

theorem exec_answers (i : Instr) (s : State) : ∃ t, exec i s = .next t := by
  cases hf : ownFault i s with
  | some f => exact ⟨_, exec_of_ownFault_eq_some hf⟩
  | none => exact ⟨_, exec_of_ownFault_eq_none hf⟩

section
variable {i : Instr} (hi : ∀ x kk, i ≠ .rnd x kk)
include hi

theorem effect_draws (s : State) : (effect i s).draws = s.draws := by
  cases i
  case rnd x kk => exact absurd rfl (hi x kk)
  all_goals rfl

theorem completed_draw (s : State) (v : Byte) (d : Nat) :
    completed i { s with rnd := v, draws := d } = { completed i s with draws := d } := by
  cases i
  case rnd x kk => exact absurd rfl (hi x kk)
  case ldVxMem x =>
    have hx := State.loadedRegs_congr (s := s) (t := { s with rnd := v, draws := d }) rfl rfl rfl (x.toNat + 1)
    simp only [completed, effect, State.loadBlock, hx]
    rfl
  all_goals rfl

/-- Only RND reads the argument of its STEP, and only RND counts (R96 (d)). -/
theorem exec_draw {s t : State} (h : exec i s = .next t) (v : Byte) (d : Nat) :
    t.draws = s.draws ∧ exec i { s with rnd := v, draws := d } = .next { t with draws := d } := by
  have hown := ownFault_draw i s v d
  obtain ⟨f, hf, rfl⟩ | ⟨hf, rfl⟩ := exec_cases h
  · exact ⟨rfl, exec_of_ownFault_eq_some (hown.trans hf)⟩
  · rw [exec_of_ownFault_eq_none (hown.trans hf), completed_draw hi s v d]
    exact ⟨effect_draws hi s, rfl⟩

/-- A meaning but RND's runs as if its STEP had no argument. -/
theorem exec_withRnd (s : State) (v : Byte) : exec i (s.withRnd v) = exec i s := by
  obtain ⟨t, ht⟩ := exec_answers i s
  obtain ⟨hd, he⟩ := exec_draw hi ht v s.draws
  calc exec i (s.withRnd v) = .next { t with draws := s.draws } := he
    _ = .next t := by rw [← hd]
    _ = exec i s := ht.symm

end

/-- A fetch out of bounds and a word that is not RND leave the argument unread. -/
theorem cycle_withRnd {s : State} (h : s.pc.toNat > 0xFFE ∨ ∀ x kk, decode s.fetchWord ≠ .ok (.rnd x kk)) (v w : Byte) :
    cycle (s.withRnd v) = cycle (s.withRnd w) := by
  by_cases hpc : s.pc.toNat > 0xFFE
  case pos =>
    have hc (u : Byte) := cycle_of_fetchOutOfBounds (s := s.withRnd u) hpc
    rw [hc v, hc w]; rfl
  case neg =>
    have hd := h.resolve_left hpc
    have hpc := Nat.not_lt.1 hpc
    cases hw : decode s.fetchWord with
    | error e =>
      have hc (u : Byte) := cycle_of_decode_eq_error (s := s.withRnd u) hpc hw
      rw [hc v, hc w]; rfl
    | ok i =>
      have hc (u : Byte) := cycle_of_decode_eq_ok (s := s.withRnd u) hpc hw
      have hi : ∀ x kk, i ≠ .rnd x kk := fun x kk hx => hd x kk (hx ▸ hw)
      rw [hc v, hc w, exec_withRnd hi, exec_withRnd hi]

/-- Settles O11: neither a meaning other than RND's nor a path of STEP without a meaning reads the argument. -/
theorem onlyRndDependsOnTheDraw : Obligations.OnlyRndDependsOnTheDraw := by
  refine ⟨fun _ _ _ v d hi ht => exec_draw hi ht v d, fun s v w h => ?_⟩
  obtain hgates | h := or_assoc.2 h
  · have hg := State.gated_iff.2 hgates
    rw [stepCommand_of_gated hg, stepCommand_of_gated hg]
  · rw [stepCommand, stepCommand, cycle_withRnd h v w]

/-! ### What a STEP can answer -/

/-- What STEP(v) can answer from `s`, path by path: a fault at the fetch has the word 0, every other fault the fetched word. -/
inductive StepAnswer (v : Byte) (s : State) : State → Prop where
  | gated (hg : s.gated = true) : StepAnswer v s s
  | fetchFault (hpc : s.pc.toNat > 0xFFE) : StepAnswer v s ((s.withRnd v).raise .fetchBounds 0)
  | wordFault (f : FaultCause) (hf : f ≠ .fetchBounds) : StepAnswer v s ((s.withRnd v).raise f s.fetchWord)
  | executed (i : Instr) (hd : decode s.fetchWord = .ok i) : StepAnswer v s (completed i (s.withRnd v))

theorem FaultCause.code_toNat_bounds (f : FaultCause) : 1 ≤ f.code.toNat ∧ f.code.toNat ≤ 6 := by cases f <;> decide

theorem FaultCause.code_eq_four_iff (f : FaultCause) : f.code = 4 ↔ f = .fetchBounds := by cases f <;> decide

/-- Only the fetch raises FetchBounds (60_exceptions.md R151). -/
theorem ownFault_ne_fetchBounds {i : Instr} {s : State} : ownFault i s ≠ some .fetchBounds := by
  cases i <;> simp [ownFault]

theorem StepAnswer.of_exec {i : Instr} {s t : State} {v : Byte} (hd : decode s.fetchWord = .ok i)
    (h : exec i (s.withRnd v) = .next t) : StepAnswer v s t := by
  obtain ⟨f, hf, rfl⟩ | ⟨-, rfl⟩ := exec_cases h
  · rw [State.raiseFor, encode_of_decode_eq_ok hd]
    exact .wordFault f fun hb => ownFault_ne_fetchBounds (hb ▸ hf)
  · exact .executed i hd

theorem StepAnswer.of_cycle {s t : State} {v : Byte} (h : cycle (s.withRnd v) = .next t) : StepAnswer v s t := by
  by_cases hpc : s.pc.toNat > 0xFFE
  case pos =>
    cases (cycle_of_fetchOutOfBounds (s := s.withRnd v) hpc).symm.trans h
    exact .fetchFault hpc
  case neg =>
    have hpc := Nat.not_lt.1 hpc
    cases hd : decode s.fetchWord with
    | error e =>
      cases (cycle_of_decode_eq_error (s := s.withRnd v) hpc hd).symm.trans h
      exact .wordFault .unknownOpcode (by decide)
    | ok i => exact .of_exec hd ((cycle_of_decode_eq_ok (s := s.withRnd v) hpc hd).symm.trans h)

theorem StepAnswer.of_stepCommand {s t : State} {v : Byte} (h : stepCommand v s = .next t) : StepAnswer v s t := by
  unfold stepCommand at h
  split at h
  case isTrue hg => cases h; exact .gated hg
  case isFalse => exact .of_cycle h

/-- Settles O15: the paths that halt are the two fault entries. -/
theorem haltingStepIsPrecise : Obligations.HaltingStepIsPrecise := by
  intro s t v ht hrunning hhalted
  cases StepAnswer.of_stepCommand ht with
  | gated => rw [hrunning] at hhalted; cases hhalted
  | fetchFault =>
    obtain ⟨hlow, hhigh⟩ := FaultCause.fetchBounds.code_toNat_bounds
    exact ⟨rfl, hlow, hhigh, rfl⟩
  | wordFault f hf =>
    obtain ⟨hlow, hhigh⟩ := f.code_toNat_bounds
    exact ⟨rfl, hlow, hhigh, (if_neg (mt f.code_eq_four_iff.1 hf)).symm⟩
  | executed i =>
    have hkept : (completed i (s.withRnd v)).halted = s.halted := effect_halted i _
    rw [hkept, hrunning] at hhalted; cases hhalted

/-! ### The timers, `dirty` and the keys -/

theorem exists_of_effect_dt_ne {i : Instr} {s : State} (h : (effect i s).dt ≠ s.dt) : ∃ x, i = .ldDtVx x := by
  contrapose! h
  exact effect_dt s h

theorem exists_of_effect_st_ne {i : Instr} {s : State} (h : (effect i s).st ≠ s.st) : ∃ x, i = .ldStVx x := by
  contrapose! h
  exact effect_st s h

/-- CLS and DRW set `dirty`; nothing else writes it. -/
theorem effect_dirty (i : Instr) (s : State) (h : s.dirty = true) : (effect i s).dirty = true := by
  cases i
  case cls | drw => rfl
  all_goals exact h

/-- Settles O12: gates and faults change none of these, so only an effect can. -/
theorem stepChangesTimersOnlyByTheirInstructions : Obligations.StepChangesTimersOnlyByTheirInstructions := by
  intro s t v ht
  cases StepAnswer.of_stepCommand ht with
  | gated | fetchFault | wordFault => exact ⟨absurd rfl, absurd rfl, id, rfl⟩
  | executed i hd =>
    refine ⟨fun h => ?_, fun h => ?_, effect_dirty i (s.withRnd v), effect_keys (s.withRnd v)⟩
    · obtain ⟨x, rfl⟩ := exists_of_effect_dt_ne h
      exact ⟨x, hd, rfl⟩
    · obtain ⟨x, rfl⟩ := exists_of_effect_st_ne h
      exact ⟨x, hd, rfl⟩

end Sys2Proof.Machine

/-!
SUPPORT. Control transfer (41_control_transfer.md): what CALL leaves on the call stack, what RET takes from it, and the skips,
which write `pc` alone.
-/

namespace Sys2Proof.Machine

/-! ### CALL and RET -/

/-- What a CALL that does not fault leaves on the call stack (R103). -/
theorem stack_of_exec_call {nnn : Addr} {s t : State} (hs : s.sp.val < 16) (h : exec (.call nnn) s = .next t) :
    t.sp.val = s.sp.val + 1 ∧ ∀ i, t.stackAt i = if i = s.sp.val then s.pc + 2 else s.stackAt i := by
  rw [exec_call_ok nnn s hs.ne] at h
  cases h
  exact ⟨s.sp_push (s.pc + 2) hs, s.stackAt_push (s.pc + 2) hs⟩

/-- A RET from a stack with `n + 1` entries in use goes to the last of them and leaves `n` in use (R101). -/
theorem exec_ret_of_sp_eq_succ {u : State} {n : Nat} (hu : u.sp.val = n + 1) :
    ∃ v, exec .ret u = .next v ∧ v.pc = u.stackAt n ∧ v.sp.val = n ∧ v.stack = u.stack := by
  have hn : u.sp.val - 1 = n := by omega
  refine ⟨_, exec_ret_ok u (by omega), ?_, ?_, rfl⟩
  · rw [State.finish_pc, hn]
  · rw [State.finish_sp, State.sp_pop, hn]

/-- Settles O22: the entry that RET reads is the one CALL wrote, at the old `sp`; the entries below it are not written. -/
theorem callThenReturnComesBack : Obligations.CallThenReturnComesBack := by
  intro nnn s t u hs ht hsp hstack
  obtain ⟨htsp, htop⟩ := stack_of_exec_call hs ht
  have hu (i : Nat) : u.stackAt i = if i = s.sp.val then s.pc + 2 else s.stackAt i :=
    (State.stackAt_congr hstack i).trans (htop i)
  obtain ⟨v, hv, hpc, hvsp, hvstack⟩ := exec_ret_of_sp_eq_succ (u := u) (hsp ▸ htsp)
  refine ⟨v, hv, ?_, Fin.ext hvsp, fun i hi => ?_⟩
  · rw [hpc, hu, if_pos rfl]
  · rw [State.stackAt_congr hvstack, hu, if_neg hi.ne]

/-! ### JP and the skips -/

/-- The last write of an instruction is that of `pc` (40_step_cycle.md R95). -/
theorem onlyPc_finish (s : State) (target : Word) : OnlyPc s (s.finish target) := rfl

/-- A 12-bit address is the same number on 16 bits (30_encoding.md R73). -/
@[simp] theorem toNat_addrWord (nnn : Addr) : (addrWord nnn).toNat = nnn.toNat :=
  BitVec.toNat_setWidth_of_le (by decide)

/-- Settles O18: the last write of JP is its only one. -/
theorem jumpSetsProgramCounter : Obligations.JumpSetsProgramCounter :=
  fun nnn s => ⟨decode_encode (.jp nnn), s.finish (addrWord nnn), rfl, toNat_addrWord nnn, onlyPc_finish s _⟩

section
variable (s : State) (p : Prop) [Decidable p]

theorem skipIf_decide_pc : (s.skipIf (decide p)).pc = if p then s.pc + 4 else s.pc + 2 := by
  simp only [State.skipIf_pc, decide_eq_true_eq]

theorem skipIf_decide_not_pc : (s.skipIf (decide ¬p)).pc = if p then s.pc + 2 else s.pc + 4 := by
  rw [skipIf_decide_pc, ite_not]

end

/-- Settles O20: both compare, with opposite conditions, and write `pc` alone. -/
theorem skipsCompareRegisterWithImmediate : Obligations.SkipsCompareRegisterWithImmediate := by
  intro x kk s
  refine ⟨decode_encode (.seVxKk x kk), decode_encode (.sneVxKk x kk), ?_, ?_⟩
  · exact ⟨s.skipIf (decide (s.reg x = kk)), rfl, skipIf_decide_pc s _, onlyPc_finish s _⟩
  · exact ⟨s.skipIf (decide (s.reg x ≠ kk)), rfl, skipIf_decide_not_pc s _, onlyPc_finish s _⟩

/-- Settles O21: with X = Y the two registers are one, and so equal. -/
theorem skipIfRegistersDiffer : Obligations.SkipIfRegistersDiffer := by
  intro x y s
  have hpc := skipIf_decide_not_pc s (s.reg x = s.reg y)
  refine ⟨decode_encode (.sneVxVy x y), s.skipIf (decide (s.reg x ≠ s.reg y)), rfl, hpc, ?_, onlyPc_finish s _⟩
  rintro rfl
  rw [hpc, if_pos rfl]

end Sys2Proof.Machine

/-!
SUPPORT. The register and ALU instructions (42_alu.md): each is a writer of its destination registers that has no fault of its
own, so one frame serves them all, and what is left of each is the value it writes.
-/

namespace Sys2Proof.Machine

/-! ### The frame of the register writers -/

theorem SameRegistersBut.mono {ds es : List Nibble} {s t : State} (h : SameRegistersBut ds s t) (hsub : ds ⊆ es) :
    SameRegistersBut es s t :=
  fun r hr => h r fun hm => hr (hsub hm)

section
variable {i : Instr} {dests : List Nibble} (s : State) (h : registerDests i = some dests)
include h

/-- The register writers end with the common advance (40_step_cycle.md R95). -/
theorem pcAfter_of_registerDests : pcAfter i s = s.pc.toNat + 2 := by cases i <;> cases h <;> rfl

theorem pc_completed_of_registerDests : (completed i s).pc = s.pc + 2 := by
  rw [completed, State.finish_pc, pcAfter_of_registerDests s h, ofNat_toNat_add]
  rfl

theorem onlyRegistersPc_completed (hd : ∀ x y n, i ≠ .drw x y n) : OnlyRegistersPc s (completed i s) := by
  have ho := onlyDisplayRegistersPc_completed s h
  obtain ⟨hfb, hdirty⟩ := display_completed s h hd
  rwa [OnlyDisplayRegistersPc, hfb, hdirty] at ho

/-- What a register writer other than DRW leaves, but for the values it writes. -/
theorem registerFrame_completed (hd : ∀ x y n, i ≠ .drw x y n) :
    (completed i s).pc = s.pc + 2 ∧ SameRegistersBut dests s (completed i s) ∧ OnlyRegistersPc s (completed i s) :=
  ⟨pc_completed_of_registerDests s h, sameRegistersBut_completed s h, onlyRegistersPc_completed s h hd⟩

end

/-! ### Copies, the sum with an immediate, AND -/

/-- Settles O23: the register written is the immediate. -/
theorem loadImmediateWritesRegister : Obligations.LoadImmediateWritesRegister :=
  fun x kk s => ⟨decode_encode (.ldVxKk x kk), completed (.ldVxKk x kk) s, exec_of_ownFault_eq_none rfl,
    State.reg_setReg_self s x kk, registerFrame_completed s rfl nofun⟩

/-- Settles O24: addition on 8 bits is the exact sum modulo 256, and the destination is the one register written. -/
theorem addImmediateWraps : Obligations.AddImmediateWraps := by
  intro x kk s
  have hx : (completed (.addVxKk x kk) s).reg x = s.reg x + kk := State.reg_setReg_self s x _
  refine ⟨decode_encode (.addVxKk x kk), _, exec_of_ownFault_eq_none rfl, ?_, registerFrame_completed s rfl nofun⟩
  exact (congrArg BitVec.toNat hx).trans (BitVec.toNat_add _ _)

/-- Settles O25: the register written is the other one's old value. -/
theorem loadRegisterCopies : Obligations.LoadRegisterCopies :=
  fun x y s => ⟨decode_encode (.ldVxVy x y), completed (.ldVxVy x y) s, exec_of_ownFault_eq_none rfl,
    State.reg_setReg_self s x _, registerFrame_completed s rfl nofun⟩

/-- Settles O26: a bit of the conjunction is the conjunction of the bits, and the destination is the one register written. -/
theorem andIsBitwise : Obligations.AndIsBitwise := by
  intro x y s
  have hx : (completed (.andVxVy x y) s).reg x = s.reg x &&& s.reg y := State.reg_setReg_self s x _
  refine ⟨decode_encode (.andVxVy x y), _, exec_of_ownFault_eq_none rfl, fun b => ?_, registerFrame_completed s rfl nofun⟩
  rw [hx, BitVec.getLsbD_and]

/-! ### The sum of two registers, with its flag -/

theorem flagByte_decide (p : Prop) [Decidable p] : flagByte (decide p) = if p then 1 else 0 := by
  simp only [flagByte, decide_eq_true_eq]

/-- The flag is written before the result (R118), so it stays where VF is not the destination. -/
theorem State.reg_vf_setFlag_setReg (s : State) {x : Nibble} (c : Bool) (v : Byte) (hx : x ≠ 15) :
    ((s.setFlag c).setReg x v).reg 15 = flagByte c := by
  rw [State.reg_setReg_of_ne _ v hx.symm, State.reg_setFlag, if_pos rfl]

/-- Settles O27: both operands come from the state before the flag is written, and the destination is written last. -/
theorem addRegistersSetsCarry : Obligations.AddRegistersSetsCarry := by
  intro x y s
  have hx : (completed (.addVxVy x y) s).reg x = s.reg x + s.reg y := State.reg_setReg_self _ x _
  have hvf (h : x ≠ 15) : (completed (.addVxVy x y) s).reg 15 = flagByte (carry (s.reg x) (s.reg y)) :=
    s.reg_vf_setFlag_setReg _ _ h
  obtain ⟨hpc, hregs, honly⟩ := registerFrame_completed (i := .addVxVy x y) s rfl nofun
  refine ⟨decode_encode (.addVxVy x y), _, exec_of_ownFault_eq_none rfl, ?_, fun h => ?_, hpc, ?_, honly⟩
  · exact (congrArg BitVec.toNat hx).trans (BitVec.toNat_add _ _)
  · rw [hvf h, carry, flagByte_decide]
  · exact hregs.mono (List.Perm.swap x 15 []).subset

/-! ### RND -/

/-- RND writes the argument that its STEP holds, masked (R116). -/
theorem reg_completed_rnd (x : Nibble) (kk : Byte) (s : State) : (completed (.rnd x kk) s).reg x = s.rnd &&& kk :=
  State.reg_setReg_self _ x _

/-- Settles O29: STEP(v) runs the same meaning on a state that holds `v`. -/
theorem randomByteIsMasked : Obligations.RandomByteIsMasked := by
  intro x kk s
  have hd : decode (0xC#4 ++ x ++ kk) = .ok (.rnd x kk) := decode_encode (.rnd x kk)
  refine ⟨hd, ?_, fun hh ha hpc hw v => ?_⟩
  · have hx := reg_completed_rnd x kk s
    have hmask : (completed (.rnd x kk) s).reg x &&& ~~~kk = 0 := by simp [hx, BitVec.and_assoc]
    exact ⟨_, exec_of_ownFault_eq_none rfl, hx, hmask, rfl, registerFrame_completed s rfl nofun⟩
  · have hstep : stepCommand v s = exec (.rnd x kk) (s.withRnd v) :=
      (stepRunsTheDecodedInstruction s _ hh ha hpc (hw ▸ hd)).1 v
    obtain ⟨hpc', -, honly⟩ := registerFrame_completed (i := .rnd x kk) (s.withRnd v) rfl nofun
    exact ⟨_, hstep.trans (exec_of_ownFault_eq_none rfl), reg_completed_rnd x kk (s.withRnd v), hpc', honly⟩

end Sys2Proof.Machine

/-!
SUPPORT. The index register and the register blocks in memory (43_index_memory.md): the instructions that set `I` write nothing
else but `pc`, and a block of registers that was stored is what a load from the same addresses reads.
-/

namespace Sys2Proof.Machine

/-! ### The index register -/

/-- The instructions that write `I` end with the common advance (R120 to R122). -/
theorem onlyIndexPc_advance_setI (s : State) (v : Word) : OnlyIndexPc s (s.setI v).advance := rfl

/-- Settles O30: a 12-bit address is the same number on 16 bits. -/
theorem loadIndexZeroExtends : Obligations.LoadIndexZeroExtends :=
  fun nnn s => ⟨decode_encode (.ldI nnn), (s.setI (addrWord nnn)).advance, rfl, toNat_addrWord nnn, rfl,
    onlyIndexPc_advance_setI s _⟩

/-- A register is the same number on 16 bits. -/
@[simp] theorem toNat_byteWord (b : Byte) : (byteWord b).toNat = b.toNat := BitVec.toNat_setWidth_of_le (by decide)

/-- Settles O31: addition on 16 bits is the exact sum modulo 65536. -/
theorem addIndexWrapsAtSixteenBits : Obligations.AddIndexWrapsAtSixteenBits := by
  intro x s
  refine ⟨decode_encode (.addIVx x), (s.setI (s.I + byteWord (s.reg x))).advance, rfl, ?_, rfl,
    onlyIndexPc_advance_setI s _⟩
  calc (s.I + byteWord (s.reg x)).toNat
      _ = (s.I.toNat + (byteWord (s.reg x)).toNat) % 65536 := BitVec.toNat_add _ _
      _ = (s.I.toNat + (s.reg x).toNat) % 65536 := by rw [toNat_byteWord]

/-- The address of a glyph fits 16 bits for every value of a register, above 15 too (R122). -/
theorem toNat_glyphAddress (b : Byte) : (BitVec.ofNat 16 (b.toNat * Config.glyphBytes)).toNat = b.toNat * 5 := by
  have hb : b.toNat * 5 < 2 ^ 16 := by have := b.isLt; omega
  exact (BitVec.toNat_ofNat _ _).trans (Nat.mod_eq_of_lt hb)

/-- Settles O32: the product is exact on 16 bits. -/
theorem fontAddressIsFiveTimesRegister : Obligations.FontAddressIsFiveTimesRegister :=
  fun x s => ⟨decode_encode (.ldFVx x), (s.setI (BitVec.ofNat 16 ((s.reg x).toNat * Config.glyphBytes))).advance, rfl,
    toNat_glyphAddress (s.reg x), rfl, onlyIndexPc_advance_setI s _⟩

/-! ### Register blocks -/

/-- What memory holds where a block of the first `n` registers was stored (R126). -/
theorem State.read_storeBlock_regBlock {s : State} {n : Nat} (hm : s.mem.wf = true) (hb : s.I.toNat + n ≤ 0x1000)
    {i : Nibble} (hi : i.toNat < n) : (s.storeBlock (s.regBlock n)).mem.read (s.I.toNat + i.toNat) = s.reg i := by
  have hlen : (s.regBlock n).length = n := s.length_regBlock n
  have hlt : i.toNat < (s.regBlock n).length := by rwa [hlen]
  calc (s.storeBlock (s.regBlock n)).mem.read (s.I.toNat + i.toNat)
      _ = (s.regBlock n)[i.toNat] := Memory.read_storeBytes_inside hm hlt (by rwa [hlen])
      _ = s.reg (BitVec.ofNat 4 i.toNat) := s.getElem_regBlock n i.toNat hlt
      _ = s.reg i := by rw [BitVec.ofNat_toNat, BitVec.setWidth_eq]

/-- What a `LD [I],Vx` that does not fault leaves in the bytes of its block (R126). -/
theorem block_of_exec_ldMemVx {x : Nibble} {s t : State} (hm : s.mem.wf = true) (hb : s.I.toNat + x.toNat ≤ 0xFFF)
    (h : exec (.ldMemVx x) s = .next t) :
    t.I = s.I ∧ ∀ i : Nibble, i.toNat ≤ x.toNat → t.mem.read (s.I.toNat + i.toNat) = s.reg i := by
  rw [exec_ldMemVx_ok x s hb] at h
  cases h
  exact ⟨rfl, fun i hi => State.read_storeBlock_regBlock hm (Nat.succ_le_succ hb) (Nat.lt_succ_of_le hi)⟩

/-- What a `LD Vx,[I]` that does not fault leaves in V0..VX (R127). -/
theorem exec_ldVxMem_reads_block {x : Nibble} {u : State} (hb : u.I.toNat + x.toNat ≤ 0xFFF) :
    ∃ v, exec (.ldVxMem x) u = .next v ∧
      ∀ i : Nibble, i.toNat ≤ x.toNat → v.reg i = u.mem.read (u.I.toNat + i.toNat) :=
  ⟨_, exec_ldVxMem_ok x u hb, fun i hi => (u.reg_loadBlock (x.toNat + 1) i).trans (if_pos (Nat.lt_succ_of_le hi))⟩

/-- Settles O36: `I` is where it was, so the load reads the bytes that the store wrote. -/
theorem blockStoreThenLoadRestores : Obligations.BlockStoreThenLoadRestores := by
  intro x s t u hm hb ht huI hkept
  obtain ⟨htI, hstored⟩ := block_of_exec_ldMemVx hm hb ht
  have hI : u.I = s.I := huI.trans htI
  obtain ⟨v, hv, hloaded⟩ := exec_ldVxMem_reads_block (x := x) (u := u) (hI ▸ hb)
  refine ⟨v, hv, fun i hi => ?_⟩
  calc v.reg i = u.mem.read (u.I.toNat + i.toNat) := hloaded i hi
    _ = t.mem.read (u.I.toNat + i.toNat) := hkept _ (by rw [huI]; omega) (by rw [huI]; omega)
    _ = t.mem.read (s.I.toNat + i.toNat) := by rw [hI]
    _ = s.reg i := hstored i hi

end Sys2Proof.Machine

/-!
SUPPORT. The display instructions (44_display.md): CLS paints the blank framebuffer, and a DRW repeated at the same place XORs the
same bits into the same cells.
-/

namespace Sys2Proof.Machine

/-! ### CLS -/

/-- Settles O37: every cell of the blank framebuffer is 0, and the painting sets `dirty`. -/
theorem clearBlanksTheFramebuffer : Obligations.ClearBlanksTheFramebuffer :=
  ⟨decode_encode .cls, fun s => ⟨(s.paint Frame.blank).advance, rfl, fun _ _ => pixel_blank _ _, rfl, rfl, rfl⟩⟩

/-! ### A sprite drawn twice -/

/-- A byte has a set bit exactly when it is not 0; the sprite columns read all eight bits. -/
theorem exists_spriteBit_iff (b : Byte) : (∃ k < 8, spriteBit b k = true) ↔ b ≠ 0 := by
  constructor
  · rintro ⟨k, -, hk⟩ rfl
    simp [spriteBit] at hk
  · intro hb
    by_contra! hclear
    refine hb (BitVec.eq_of_getLsbD_eq fun i hi => ?_)
    have hbit := hclear (7 - i) (by omega)
    rw [spriteBit, Nat.sub_sub_self (by omega)] at hbit
    simpa using hbit

section
variable (m : Memory) (a : Nat) (vx vy : Byte) {n : Nat} (hn : n ≤ 32)
include hn

/-- What a sprite XORs into a cell does not depend on the framebuffer, so a second drawing undoes the first. -/
theorem drawSprite_twice_pixel (c : Frame × Bool) (hit : Bool) (col row : Nat) :
    (drawSprite m a vx vy n ((drawSprite m a vx vy n c).1, hit)).1.pixel col row = c.1.pixel col row := by
  have hp : ∀ p ∈ spritePoints n, p.1 < 32 ∧ p.2 < 8 := fun p h => by have := mem_spritePoints.1 h; omega
  have hdraw c := (foldl_drawPoint m a vx vy _ (nodup_spritePoints n) hp c).1 col row
  simp only [← drawSprite_eq_foldl] at hdraw
  rw [hdraw, hdraw, Bool.xor_assoc, Bool.xor_self, Bool.xor_false]

/-- Where no set bit met a set cell, every set bit has set its own cell, so each meets one when the sprite is drawn again. -/
theorem drawSprite_twice_collision {fb : Frame} (hfirst : (drawSprite m a vx vy n (fb, false)).2 = false) :
    (drawSprite m a vx vy n ((drawSprite m a vx vy n (fb, false)).1, false)).2 = true ↔
      ∃ r < n, m.read (a + r) ≠ 0 := by
  have hmeets : ∀ r < n, ∀ k < 8, spriteBit (m.read (a + r)) k = true →
      (drawSprite m a vx vy n (fb, false)).1.pixel (spriteCol vx k) (spriteRow vy r) = true := by
    intro r hr k hk hbit
    have hclear : fb.pixel (spriteCol vx k) (spriteRow vy r) = false := by
      by_contra hset
      have := (drawSprite_collision m a vx vy hn fb).2 ⟨r, hr, k, hk, by simpa using hset, hbit⟩
      exact Bool.false_ne_true (hfirst.symm.trans this)
    rw [drawSprite_on m a vx vy hn _ hr hk, hclear, hbit]
    rfl
  rw [drawSprite_collision m a vx vy hn]
  refine exists_congr fun r => and_congr_right fun hr => ?_
  rw [← exists_spriteBit_iff]
  exact exists_congr fun k => and_congr_right fun hk => and_iff_right_of_imp (hmeets r hr k hk)

end

/-- DRW leaves its collision in VF, whatever VF held (R132). -/
theorem reg_vf_completed_drw (x y n : Nibble) (s : State) :
    (completed (.drw x y n) s).reg 15 = flagByte (s.drawResult x y n).2 :=
  State.reg_setReg_self _ vf _

theorem flagByte_eq_one_iff (c : Bool) : flagByte c = 1 ↔ c = true := by cases c <;> decide

theorem flagByte_eq_zero_iff (c : Bool) : flagByte c = 0 ↔ c = false := by cases c <;> decide

/-- Settles O39: the second DRW draws the same sprite, at the same place, over the framebuffer the first one left. -/
theorem drawTwiceRestores : Obligations.DrawTwiceRestores := by
  intro x y n s t u hf ht huI humem hufb hx hy
  obtain rfl := eq_completed_of_exec hf ht
  have hn : n.toNat ≤ 32 := n.isLt.le.trans (by decide)
  have hI : u.I = s.I := huI
  have hu : u.drawResult x y n =
      drawSprite s.mem s.I.toNat (s.reg x) (s.reg y) n.toNat ((s.drawResult x y n).1, false) := by
    rw [State.drawResult, hI, humem, hufb, hx, hy]
    rfl
  have hfu : ownFault (.drw x y n) u = none := by rwa [ownFault, hI]
  refine ⟨_, exec_of_ownFault_eq_none hfu, fun col _ row _ => ?_, fun hvf => ?_⟩
  · have hfb : (completed (.drw x y n) u).fb = (u.drawResult x y n).1 := rfl
    rw [hfb, hu]
    exact drawSprite_twice_pixel _ _ _ _ hn (s.fb, false) false col row
  · rw [reg_vf_completed_drw, flagByte_eq_zero_iff] at hvf
    rw [reg_vf_completed_drw, flagByte_eq_one_iff, hu]
    exact drawSprite_twice_collision _ _ _ _ hn hvf

end Sys2Proof.Machine

/-!
SUPPORT. The keypad and timer instructions (45_keypad_timers.md): the timers are copied from and to a register, and the key wait
lasts from its latch to DELIVER_KEY.
-/

namespace Sys2Proof.Machine

/-! ### The timers -/

/-- Settles O41: the register written is the delay timer, which a register writer does not touch. -/
theorem loadFromDelayTimer : Obligations.LoadFromDelayTimer :=
  fun x s => ⟨decode_encode (.ldVxDt x), completed (.ldVxDt x) s, exec_of_ownFault_eq_none rfl,
    State.reg_setReg_self s x s.dt, registerFrame_completed s rfl nofun⟩

theorem onlyTimersPc_advance_setDt (s : State) (v : Byte) : OnlyTimersPc s (s.setDt v).advance := rfl

theorem onlyTimersPc_advance_setSt (s : State) (v : Byte) : OnlyTimersPc s (s.setSt v).advance := rfl

/-- Settles O43: each of the two writes its own timer before the common advance. -/
theorem timersAreLoadedFromRegister : Obligations.TimersAreLoadedFromRegister := by
  intro x s
  refine ⟨decode_encode (.ldDtVx x), decode_encode (.ldStVx x), ?_, ?_⟩
  · exact ⟨(s.setDt (s.reg x)).advance, rfl, rfl, rfl, rfl, onlyTimersPc_advance_setDt s _⟩
  · exact ⟨(s.setSt (s.reg x)).advance, rfl, rfl, rfl, rfl, onlyTimersPc_advance_setSt s _⟩

/-! ### The key wait -/

theorem onlyLatchPc_advance_latchKey (s : State) (x : Nibble) : OnlyLatchPc s (s.latchKey x).advance := rfl

section
variable (s : State) (v : Nibble)

/-- A key delivered to a machine that waits for one ends the wait (60_exceptions.md R168). -/
theorem issue_deliverKey_of_awaitingKey (hh : s.halted = false) (ha : s.awaitingKey = true) :
    issue (.deliverKey v) s = .next (s.endKeyWait v) := by
  simp only [issue, State.deliverKey, State.unlessHalted, hh, ha, Bool.false_eq_true, if_false, if_true]

/-- The end of a key wait writes one register, the one the latch names. -/
theorem State.reg_endKeyWait (r : Nibble) :
    (s.endKeyWait v).reg r = if r = s.keyDest then v.setWidth 8 else s.reg r :=
  State.reg_setReg s s.keyDest r (v.setWidth 8)

theorem State.toNat_reg_keyDest_endKeyWait : ((s.endKeyWait v).reg s.keyDest).toNat = v.toNat := by
  rw [State.reg_endKeyWait, if_pos rfl]
  exact BitVec.toNat_setWidth_of_le (by decide)

theorem sameRegistersBut_endKeyWait : SameRegistersBut [s.keyDest] s (s.endKeyWait v) :=
  fun r hr => (State.reg_endKeyWait s v r).trans (if_neg (List.ne_of_not_mem_cons hr))

end

/-- Settles O42: the latch closes the gates of STEP, and names the register that DELIVER_KEY writes. -/
theorem waitForKeySetsTheLatch : Obligations.WaitForKeySetsTheLatch := by
  intro x s
  refine ⟨decode_encode (.ldVxK x), (s.latchKey x).advance, rfl, rfl, rfl, rfl, onlyLatchPc_advance_latchKey s x, ?_, ?_⟩
  · exact stepCommand_of_gated (State.gated_iff.2 (.inr rfl))
  · exact fun hh v => ⟨(s.latchKey x).advance.endKeyWait v, issue_deliverKey_of_awaitingKey _ v hh rfl,
      State.toNat_reg_keyDest_endKeyWait _ v, rfl, hh, rfl, sameRegistersBut_endKeyWait (s.latchKey x).advance v⟩

end Sys2Proof.Machine

/-!
SUPPORT. The family of 60_exceptions.md: the completion of an instruction without a fault (R151, R158), the commands that a halted
machine ignores (R155, R165 to R170), and the key-wait latch as a machine of two states (R169).
-/

namespace Sys2Proof.Machine

/-! ### Completion -/

/-- Settles O14: what executes is the effect and the last write, and neither writes a fault register. -/
theorem everyInstructionExecutes : Obligations.EveryInstructionExecutes :=
  fun i s hf => ⟨completed i s, exec_of_ownFault_eq_none hf, effect_halted i s, effect_faultCause i s, effect_faultOpcode i s⟩

/-! ### Commands that a halted machine ignores -/

section
variable {s : State}

theorem State.unlessHalted_of_halted (h : s.halted = true) (t : State) : s.unlessHalted t = s := if_pos h

theorem State.unlessHalted_of_not_halted (h : s.halted = false) (t : State) : s.unlessHalted t = t :=
  if_neg (Bool.eq_false_iff.1 h)

/-- What holds of a machine left as it is and of the command's own answer, holds after the command (R155). -/
theorem State.unlessHalted_induction {P : State → Prop} {t : State} (hs : P s) (ht : P t) : P (s.unlessHalted t) := by
  unfold State.unlessHalted
  split
  · exact hs
  · exact ht

end

/-- One lower, and 0 at 0, as an exact number (R165). -/
theorem toNat_countDown (b : Byte) : (countDown b).toNat = b.toNat - 1 := by
  unfold countDown
  split <;> bv_omega

theorem onlyTimers_tick (s : State) : OnlyOwn { s with dt := s.tick.dt, st := s.tick.st } s.tick :=
  State.unlessHalted_induction (P := fun t => OnlyOwn { s with dt := t.dt, st := t.st } t) rfl rfl

/-- Settles O44: TICK counts each timer down, and the count stops at 0. -/
theorem tickCountsDownToZero : Obligations.TickCountsDownToZero := by
  refine fun s => ⟨s.tick, rfl, fun hh => ?_, fun hh => State.unlessHalted_of_halted hh _, onlyTimers_tick s⟩
  rw [State.tick, State.unlessHalted_of_not_halted hh]
  exact ⟨toNat_countDown s.dt, toNat_countDown s.st⟩

theorem onlyKeys_setKey (s : State) (k : Nibble) (p : Bool) : OnlyOwn { s with keys := (s.setKey k p).keys } (s.setKey k p) :=
  State.unlessHalted_induction (P := fun t => OnlyOwn { s with keys := t.keys } t) rfl rfl

/-- SET_KEY writes the key it names and no other one, halted or not (R167). -/
theorem State.key_setKey_of_ne (s : State) {k j : Nibble} (p : Bool) (hj : j ≠ k) : (s.setKey k p).key j = s.key j := by
  cases hh : s.halted with
  | true => rw [State.setKey, State.unlessHalted_of_halted hh]
  | false => rw [State.key_setKey s k j p hh, if_neg hj]

/-- Settles O45: the one entry written is that of the key named. -/
theorem setKeyWritesTheKeyTable : Obligations.SetKeyWritesTheKeyTable :=
  fun s k p => ⟨s.setKey k p, rfl, fun hh => (State.key_setKey s k k p hh).trans (if_pos rfl),
    fun hh => State.unlessHalted_of_halted hh _, fun _ => State.key_setKey_of_ne s p, onlyKeys_setKey s k p⟩

/-- Settles O47: CLEAR_DIRTY writes `dirty` alone. -/
theorem clearDirtyClearsTheFlag : Obligations.ClearDirtyClearsTheFlag := by
  refine fun s => ⟨s.clearDirty, rfl, fun hh => ?_, fun hh => State.unlessHalted_of_halted hh _, ?_⟩
  · rw [State.clearDirty, State.unlessHalted_of_not_halted hh]
  · exact State.unlessHalted_induction (P := fun t => OnlyOwn { s with dirty := t.dirty } t) rfl rfl

/-! ### DELIVER_KEY -/

section
variable {s : State} (v : Nibble)

theorem State.deliverKey_of_awaitingKey (hh : s.halted = false) (ha : s.awaitingKey = true) :
    s.deliverKey v = s.endKeyWait v :=
  Host.Outcome.next.inj (issue_deliverKey_of_awaitingKey s v hh ha)

/-- A key that nothing waits for is lost, not queued, and a halted machine takes none (R168, R155). -/
theorem State.deliverKey_of_lost (h : s.halted = true ∨ s.awaitingKey = false) : s.deliverKey v = s := by
  obtain hh | ha := h
  · exact State.unlessHalted_of_halted hh _
  · rw [State.deliverKey, ha]
    exact ite_self s

theorem onlyWait_deliverKey :
    OnlyOwn { s with x := (s.deliverKey v).x, awaitingKey := (s.deliverKey v).awaitingKey } (s.deliverKey v) := by
  refine State.unlessHalted_induction (P := fun t => OnlyOwn { s with x := t.x, awaitingKey := t.awaitingKey } t) rfl ?_
  split <;> rfl

end

/-- Settles O46: a key that is awaited ends the wait, and every other one is lost. -/
theorem deliverKeyEndsTheWait : Obligations.DeliverKeyEndsTheWait := by
  refine fun s v => ⟨s.deliverKey v, rfl, fun hh ha => ?_, State.deliverKey_of_lost v, onlyWait_deliverKey v⟩
  rw [State.deliverKey_of_awaitingKey v hh ha]
  exact ⟨State.toNat_reg_keyDest_endKeyWait s v, rfl, sameRegistersBut_endKeyWait s v⟩

/-! ### The key-wait latch -/

/-- Of all effects, only LD Vx,K's sets the latch (45_keypad_timers.md R143). -/
theorem exists_of_effect_sets_latch {i : Instr} {s : State} (hs : s.awaitingKey = false)
    (ht : (effect i s).awaitingKey = true) : ∃ x, i = .ldVxK x := by
  by_contra! hi
  obtain ⟨hkept, -⟩ := effect_latch s hi
  rw [hkept, hs] at ht
  cases ht

/-- A STEP that sets the latch executes LD Vx,K, which names the register awaited (R169). -/
theorem stepCommand_sets_latch {s t : State} {v : Byte} (h : stepCommand v s = .next t) (hs : s.awaitingKey = false)
    (ht : t.awaitingKey = true) : ∃ x, decode s.fetchWord = .ok (.ldVxK x) ∧ t.keyDest = x := by
  cases StepAnswer.of_stepCommand h with
  | gated | fetchFault | wordFault => exact absurd (hs.symm.trans ht) nofun
  | executed i hd =>
    obtain ⟨x, rfl⟩ := exists_of_effect_sets_latch (s := s.withRnd v) hs ht
    exact ⟨x, hd, rfl⟩

/-- While a key is awaited STEP changes nothing, the latch included (40_step_cycle.md R91). -/
theorem stepCommand_keeps_latch {s t : State} {v : Byte} (h : stepCommand v s = .next t) (hs : s.awaitingKey = true) :
    t.awaitingKey = true := by
  rw [stepCommand_of_gated (State.gated_iff.2 (.inr hs))] at h
  cases h
  exact hs

theorem awaitingKey_load (s : State) (image : List Byte) : (s.load image).2.awaitingKey = s.awaitingKey := by
  unfold State.load
  split <;> rfl

/-- LOAD, TICK, SET_KEY and CLEAR_DIRTY leave the latch (R169). -/
theorem awaitingKey_of_issue {c : Command} {s t : State} (h : issue c s = .next t) (hr : c ≠ .reset) (hs : ∀ v, c ≠ .step v)
    (hd : ∀ v, c ≠ .deliverKey v) : t.awaitingKey = s.awaitingKey := by
  cases c with
  | reset => exact absurd rfl hr
  | step v => exact absurd rfl (hs v)
  | deliverKey v => exact absurd rfl (hd v)
  | load image =>
    rw [issue, loadCommand] at h
    split at h
    case isTrue => cases h; exact awaitingKey_load s image
    case isFalse => cases h
  | tick | setKey | clearDirty =>
    cases h
    exact State.unlessHalted_induction (P := fun t => t.awaitingKey = s.awaitingKey) rfl rfl

/-- Settles O51: a STEP never clears the latch, a DELIVER_KEY never sets it, and the other commands leave it. -/
theorem keyWaitLatchTransitions : Obligations.KeyWaitLatchTransitions := by
  intro c s t h hr
  cases c with
  | reset => exact absurd rfl hr
  | step v =>
    refine ⟨fun hs ht => ⟨⟨v, rfl⟩, stepCommand_sets_latch h hs ht⟩, fun hs ht => ?_⟩
    exact absurd (ht.symm.trans (stepCommand_keeps_latch h hs)) nofun
  | deliverKey v =>
    refine ⟨fun hs ht => ?_, fun _ _ => ⟨v, rfl⟩⟩
    cases h
    rw [State.deliverKey_of_lost v (.inr hs)] at ht
    exact absurd (hs.symm.trans ht) nofun
  | load | tick | setKey | clearDirty =>
    have hkept := awaitingKey_of_issue h hr nofun nofun
    rw [hkept]
    exact ⟨fun hs ht => absurd (hs.symm.trans ht) nofun, fun hs ht => absurd (hs.symm.trans ht) nofun⟩

end Sys2Proof.Machine

/-!
SUPPORT. The family of 70_reset_and_hazards.md: LOAD inside and outside its window (R182 to R184), and the machine without a
program (R181).
-/

namespace Sys2Proof.Machine

/-! ### LOAD -/

section
variable {s : State} {image : List Byte}

theorem State.load_of_le (h : image.length ≤ Config.maxImage) :
    s.load image = (.ok, { s with mem := s.mem.storeBytes Config.progBase image }) := if_neg (Nat.not_lt.2 h)

theorem State.load_of_gt (h : image.length > Config.maxImage) : s.load image = (.fail, s) := if_pos h

theorem issue_load_of_open (h : s.loadOpen = true) : issue (.load image) s = .next (s.load image).2 := if_pos h

theorem issue_load_of_closed (h : s.loadOpen = false) : issue (.load image) s = .refused .loadAfterStep :=
  if_neg (Bool.eq_false_iff.1 h)

end

/-- Settles O49: an image that fits lies inside memory, so each of its bytes is read back where it was stored. -/
theorem loadIsAllOrNothing : Obligations.LoadIsAllOrNothing := by
  refine fun s image hwf => ⟨fun hopen hle => ?_, fun hopen hgt => ?_, issue_load_of_closed⟩
  · have hfits : Config.progBase + image.length ≤ Config.memSize := Nat.add_le_add_left hle Config.progBase
    rw [issue_load_of_open hopen, State.load_of_le hle]
    exact ⟨rfl, _, rfl, fun _ hi => Memory.read_storeBytes_inside hwf hi hfits,
      fun _ hb => Memory.read_storeBytes_outside s.mem image hb, rfl⟩
  · rw [issue_load_of_open hopen, State.load_of_gt hgt]
    exact ⟨rfl, rfl⟩

/-! ### A machine without a program -/

/-- Memory above the font is 0 after RESET, so the first STEP, whatever its argument, fetches the word 0, which is illegal. -/
theorem stepCommand_reset (v : Byte) :
    stepCommand v State.reset = .next ((State.reset.withRnd v).raise .unknownOpcode 0) := by
  have hpc : State.reset.pc.toNat ≤ 0xFFE := by decide
  have hword : State.reset.fetchWord = 0 := by decide
  have hillegal : decode State.reset.fetchWord = .error (.unknownOpcode 0) := by rw [hword]; rfl
  rw [stepCommand_of_not_gated rfl, ← hword]
  exact cycle_of_decode_eq_error hpc hillegal

/-- Settles O53: the first step enters the fault, and the halt it leaves closes the gates of every further one. -/
theorem machineWithoutProgramFaults : Obligations.MachineWithoutProgramFaults := by
  refine ⟨_, (step_of_pending_eq_nil rfl).trans (stepCommand_reset _), faultEntered_raise State.reset _ .unknownOpcode 0, ?_⟩
  exact (step_of_pending_eq_nil rfl).trans (stepCommand_of_gated (State.gated_iff.2 (.inl rfl)) _)

end Sys2Proof.Machine

/-!
SUPPORT. The illegal words family by family (30_encoding.md R76), read off the arms of the decoder.
-/

namespace Sys2Proof.Machine

/-- The last two digits of a word are its low byte (30_encoding.md R71). -/
@[simp] theorem fieldKK_formatXYN (f x y n : Nibble) : fieldKK (formatXYN f x y n) = y ++ n := by
  apply BitVec.eq_of_getLsbD_eq; intro i hi
  simp [fieldKK, formatXYN]; grind

theorem exists_decodeXY_eq_ok_iff {op : Word} :
    (∃ i, decodeXY op = .ok i) ↔ fieldN op ∈ ([0x0, 0x2, 0x4, 0x5] : List Nibble) := by
  unfold decodeXY
  split <;> simp_all

theorem exists_decodeX_eq_ok_iff {op : Word} : (∃ i, decodeX op = .ok i) ↔
    fieldKK op ∈ ([0x07, 0x0A, 0x15, 0x18, 0x1E, 0x29, 0x33, 0x55, 0x65] : List Byte) := by
  unfold decodeX
  split <;> simp_all

/-- An arm of the decoder that reads two words and rejects every other one. -/
theorem exists_ite_eq_ok_iff {p q : Prop} [Decidable p] [Decidable q] {i j : Instr} {e : Reject} :
    (∃ k, (if p then .ok i else if q then .ok j else .error e : Except Reject Instr) = .ok k) ↔ p ∨ q := by
  split_ifs <;> simp_all

/-- The words of family 0x0 that CLS and RET have. -/
theorem family_zero_legal_iff {x y n : Nibble} :
    (formatXYN 0#4 x y n = 0x00E0#16 ∨ formatXYN 0#4 x y n = 0x00EE#16) ↔ x = 0x0 ∧ y = 0xE ∧ (n = 0x0 ∨ n = 0xE) := by
  have hword (d : Nibble) : formatXYN 0#4 x y n = formatXYN 0#4 0x0 0xE d ↔ x = 0x0 ∧ y = 0xE ∧ n = d :=
    formatXYN_inj.trans (and_iff_right rfl)
  rw [and_or_left, and_or_left]
  exact or_congr (hword 0x0) (hword 0xE)

/-- The low digits of the illegal words of family 0x8, the other way round. -/
theorem mem_undefined_alu_iff (n : Nibble) :
    n ∈ ([0x1, 0x3, 0x6, 0x7, 0x8, 0x9, 0xA, 0xB, 0xC, 0xD, 0xE, 0xF] : List Nibble) ↔
      n ∉ ([0x0, 0x2, 0x4, 0x5] : List Nibble) := by
  revert n; decide

/-- Settles O4: each arm of the decoder rejects the words of its family that the statement lists. -/
theorem illegalWordsByFamily : Obligations.IllegalWordsByFamily := by
  intro f x y n
  change legalWord (formatXYN f x y n) = false ↔ _
  rw [← Bool.not_eq_true, legalWord_iff_decode, mem_undefined_alu_iff]
  unfold decode
  rw [fieldFam_formatXYN]
  split
  case h_1 => -- family 0x0
    rw [exists_ite_eq_ok_iff, family_zero_legal_iff]
    simp
  case h_9 => -- family 0x8
    simp [-List.mem_cons, exists_decodeXY_eq_ok_iff]
  case h_10 => -- family 0x9
    split_ifs <;> simp_all
  case h_15 => -- family 0xE
    simp [exists_ite_eq_ok_iff]
  case h_16 h0 h1 h2 h3 h4 h5 h6 h7 h8 h9 h10 h11 h12 h13 h14 => -- family 0xF
    rw [family_last h0 h1 h2 h3 h4 h5 h6 h7 h8 h9 h10 h11 h12 h13 h14]
    simp [-List.mem_cons, exists_decodeX_eq_ok_iff]
  all_goals simp

end Sys2Proof.Machine

/-!
SUPPORT. Faults of an instruction's own, entered by the meanings that check them (60_exceptions.md R151), and the instructions that
have one: the call stack, the stores and loads of blocks, DRW, SKP and SKNP.
-/

namespace Sys2Proof.Machine

/-! ### The fault entry -/

/-- Settles O13: where the condition holds, the meaning is the fault entry with the instruction's own word, and nothing more. -/
theorem ownFaultIsEntered : Obligations.OwnFaultIsEntered :=
  fun i s c h => ⟨s.raiseFor c i, exec_of_ownFault_eq_some h, rfl, rfl, rfl, rfl⟩

/-! ### The call stack -/

/-- Settles O17: RET reads the entry at the new `sp`, and a stack with no entry in use is the condition of its fault. -/
theorem returnPopsTheCallStack : Obligations.ReturnPopsTheCallStack :=
  ⟨decode_encode .ret, fun s => ⟨fun hs => ⟨_, exec_ret_ok s hs.ne', s.sp_pop, rfl, rfl, rfl⟩,
    fun hs => ownFaultIsEntered .ret s .stackUnderflow (if_pos hs)⟩⟩

/-- Settles O19: CALL writes the entry at the old `sp` and no other, and a full stack is the condition of its fault. -/
theorem callPushesReturnAddress : Obligations.CallPushesReturnAddress := by
  refine fun nnn s => ⟨decode_encode (.call nnn), fun hs => ?_, fun hs => ?_⟩
  · have hstack := s.stackAt_push (s.pc + 2) hs
    exact ⟨_, exec_call_ok nnn s hs.ne, (hstack _).trans (if_pos rfl), fun i hi => (hstack i).trans (if_neg hi),
      s.sp_push (s.pc + 2) hs, toNat_addrWord nnn, rfl⟩
  · exact ownFaultIsEntered (.call nnn) s .stackOverflow (if_pos hs)

/-! ### Blocks in memory -/

/-- A number up to a byte's value is itself a byte. -/
theorem toNat_ofNat_of_le_byte {d : Nat} {b : Byte} (h : d ≤ b.toNat) : (BitVec.ofNat 8 d).toNat = d :=
  (BitVec.toNat_ofNat d 8).trans (Nat.mod_eq_of_lt (h.trans_lt b.isLt))

/-- Settles O33: the three digits are stored from `I` on; none is above the register's value, so each fits its byte. -/
theorem decimalDigitsAreStored : Obligations.DecimalDigitsAreStored := by
  refine fun x s hm => ⟨decode_encode (.ldBVx x), fun hb => ?_, fun hb => ?_⟩
  · have hfits : s.elemAddr 0 + (decimalDigits (s.reg x)).length ≤ Config.memSize := Nat.succ_le_succ hb
    have hread (k : Nat) (hk : k < 3) : ((s.storeBlock (decimalDigits (s.reg x))).mem.read (s.I.toNat + k)).toNat =
        ((decimalDigits (s.reg x))[k]).toNat :=
      congrArg BitVec.toNat (Memory.read_storeBytes_inside hm hk hfits)
    have hhundreds := toNat_ofNat_of_le_byte (Nat.div_le_self (s.reg x).toNat 100)
    have htens := toNat_ofNat_of_le_byte ((Nat.mod_le _ 10).trans (Nat.div_le_self (s.reg x).toNat 10))
    have hones := toNat_ofNat_of_le_byte (Nat.mod_le (s.reg x).toNat 10)
    exact ⟨_, exec_ldBVx_ok x s hb, (hread 0 (by decide)).trans hhundreds, (hread 1 (by decide)).trans htens,
      (hread 2 (by decide)).trans hones,
      fun _ ha => Memory.read_storeBytes_outside _ _ ha, rfl, rfl⟩
  · exact ownFaultIsEntered (.ldBVx x) s .memoryBounds (if_pos hb)

/-- Settles O34: the block stored is V0..VX, from `I` on, and `I` is left alone. -/
theorem registerBlockIsStored : Obligations.RegisterBlockIsStored := by
  refine fun x s hm => ⟨decode_encode (.ldMemVx x), fun hb => ?_, fun hb => ?_⟩
  · have hexec := exec_ldMemVx_ok x s hb
    have hf : ownFault (.ldMemVx x) s = none := if_neg (Nat.not_lt.2 hb)
    obtain ⟨-, hblock⟩ := block_of_exec_ldMemVx hm hb hexec
    exact ⟨_, hexec, hblock, (storingInstructionFrame _ _ s _ rfl hf hexec).1, rfl, rfl⟩
  · exact ownFaultIsEntered (.ldMemVx x) s .memoryBounds (if_pos hb)

/-- Settles O35: the loads write V0..VX and no register above, and `I` is left alone. -/
theorem registerBlockIsLoaded : Obligations.RegisterBlockIsLoaded := by
  refine fun x s => ⟨decode_encode (.ldVxMem x), fun hb => ?_, fun hb => ?_⟩
  · refine ⟨_, exec_ldVxMem_ok x s hb, fun i => ?_, rfl, rfl⟩
    simp only [← Nat.lt_succ_iff]
    exact s.reg_loadBlock (x.toNat + 1) i
  · exact ownFaultIsEntered (.ldVxMem x) s .memoryBounds (if_pos hb)

/-! ### DRW -/

/-- Settles O38: the cells and the collision of a sprite of at most 15 rows, in closed form, and the frame of a register writer. -/
theorem drawXorsTheSprite : Obligations.DrawXorsTheSprite := by
  refine fun x y n s => ⟨decode_encode (.drw x y n), fun hb => ?_, fun hb => ?_⟩
  · have hn : n.toNat ≤ 32 := n.isLt.le.trans (by decide)
    have hf : ownFault (.drw x y n) s = none := if_neg (by bv_omega)
    have hvf := reg_vf_completed_drw x y n s
    refine ⟨_, exec_of_ownFault_eq_none hf, fun r hr c hc => ?_, fun col _ row _ hoff => ?_, ?_, ?_, rfl,
      pc_completed_of_registerDests s rfl, sameRegistersBut_completed s rfl, onlyDisplayRegistersPc_completed s rfl⟩
    · exact drawSprite_on s.mem s.I.toNat (s.reg x) (s.reg y) hn (s.fb, false) hr hc
    · exact drawSprite_off s.mem s.I.toNat (s.reg x) (s.reg y) hn (s.fb, false) hoff
    · rw [hvf]
      cases (s.drawResult x y n).2
      · exact .inl rfl
      · exact .inr rfl
    · rw [hvf, flagByte_eq_one_iff]
      exact drawSprite_collision s.mem s.I.toNat (s.reg x) (s.reg y) hn s.fb
  · exact ownFaultIsEntered (.drw x y n) s .memoryBounds (if_pos (by bv_omega))

/-! ### SKP and SKNP -/

/-- Settles O40: the register names the key it equals, and a value that names no key is the condition of the fault. -/
theorem keySkipsReadTheKeyTable : Obligations.KeySkipsReadTheKeyTable := by
  refine fun x s => ⟨decode_encode (.skp x), decode_encode (.sknp x), fun k hk => ⟨?_, ?_⟩, fun hk => ⟨?_, ?_⟩⟩
  · exact ⟨_, exec_skp_ok x s hk, s.skipIf_pc _, onlyPc_finish s _⟩
  · refine ⟨_, exec_sknp_ok x s hk, ?_, onlyPc_finish s _⟩
    cases s.key k <;> rfl
  · exact ownFaultIsEntered (.skp x) s .keyIndex (if_pos hk)
  · exact ownFaultIsEntered (.sknp x) s .keyIndex (if_pos hk)

end Sys2Proof.Machine

/-! SUPPORT. The difference of two registers, with its flag (42_alu.md R115): a register writer like the sum. -/

namespace Sys2Proof.Machine

/-- Settles O28: both operands come from the state before the flag is written, and the destination is written last. -/
theorem subtractRegistersSetsNotBorrow : Obligations.SubtractRegistersSetsNotBorrow := by
  intro x y s
  have hx : (completed (.subVxVy x y) s).reg x = s.reg x - s.reg y := State.reg_setReg_self _ x _
  have hvf (h : x ≠ 15) : (completed (.subVxVy x y) s).reg 15 = flagByte (notBorrow (s.reg x) (s.reg y)) :=
    s.reg_vf_setFlag_setReg _ _ h
  obtain ⟨hpc, hregs, honly⟩ := registerFrame_completed (i := .subVxVy x y) s rfl nofun
  refine ⟨decode_encode (.subVxVy x y), _, exec_of_ownFault_eq_none rfl, ?_, fun h => ?_, hpc, ?_, honly⟩
  · rw [hx]; bv_omega
  · rw [hvf h, notBorrow, flagByte_decide]
  · exact hregs.mono (List.Perm.swap x 15 []).subset

end Sys2Proof.Machine

/-!
SUPPORT. What the commands leave: the fetch bound of STEP (40_step_cycle.md R92), the halted machine (60_exceptions.md R155), RESET
(70_reset_and_hazards.md R180), the window of LOAD (R184), and the order of the commands (00_scope.md R6).
-/

namespace Sys2Proof.Machine

/-- Settles O8: beyond the bound nothing is fetched. -/
theorem fetchBoundIsChecked : Obligations.FetchBoundIsChecked := by
  refine fun s v hh ha => ⟨fun hpc => ?_, fun hpc i hd => (stepRunsTheDecodedInstruction s i hh ha hpc hd).1 v⟩
  refine ⟨_, ?_, faultEntered_raise s v .fetchBounds 0⟩
  rw [stepCommand_of_not_gated (State.gated_eq_false hh ha)]
  exact cycle_of_fetchOutOfBounds hpc

/-- A command under `unlessHalted` is ignored by a halted machine. -/
theorem next_unlessHalted_of_halted {s : State} (h : s.halted = true) (t : State) :
    (.next (s.unlessHalted t) : Result) = .next s :=
  congrArg _ (State.unlessHalted_of_halted h t)

/-- Settles O16: the gates turn STEP away, and the other four commands are ignored. -/
theorem haltedMachineIsFrozen : Obligations.HaltedMachineIsFrozen :=
  fun s hh => ⟨stepCommand_of_gated (State.gated_iff.2 (.inl hh)), next_unlessHalted_of_halted hh _,
    fun _ _ => next_unlessHalted_of_halted hh _, fun _ => next_unlessHalted_of_halted hh _,
    next_unlessHalted_of_halted hh _, s.resetCommand, rfl, rfl⟩

/-- Settles O48: RESET leaves the reset state but for fields of the model's own. -/
theorem resetCommandGivesTheResetValues : Obligations.ResetCommandGivesTheResetValues :=
  fun s => ⟨s.resetCommand, rfl, { resetStateHasTheResetValues with }⟩

/-- Settles O50: the two cases are those of the list of pending commands. -/
theorem stepTakesTheOldestCommand : Obligations.StepTakesTheOldestCommand :=
  fun s => ⟨step_of_pending_eq_nil, fun c rest hp => by rw [step, nextCommand, hp]⟩

/-! ### The window of LOAD -/

/-- Every path of a STEP that the gates let through answers a next state. -/
theorem cycle_answers (s : State) : ∃ t, cycle s = .next t := by
  unfold cycle
  split
  · exact ⟨_, rfl⟩
  · split
    · exact exec_answers _ s
    · exact ⟨_, rfl⟩

/-- A STEP that executes or faults closes the window (R184). -/
theorem loadOpen_of_stepCommand {s t : State} {v : Byte} (hg : s.gated = false) (h : stepCommand v s = .next t) :
    t.loadOpen = false := by
  cases StepAnswer.of_stepCommand h with
  | gated hg' => exact absurd (hg.symm.trans hg') nofun
  | fetchFault | wordFault | executed => rfl

theorem loadOpen_load (s : State) (image : List Byte) : (s.load image).2.loadOpen = s.loadOpen := by
  unfold State.load
  split <;> rfl

theorem loadOpen_deliverKey (s : State) (v : Nibble) : (s.deliverKey v).loadOpen = s.loadOpen := by
  refine State.unlessHalted_induction (P := fun t => t.loadOpen = s.loadOpen) rfl ?_
  split <;> rfl

/-- The commands other than RESET and STEP leave the window (R184). -/
theorem loadOpen_of_issue {c : Command} {s t : State} (hr : c ≠ .reset) (hs : ∀ v, c ≠ .step v) (h : issue c s = .next t) :
    t.loadOpen = s.loadOpen := by
  cases c with
  | reset => exact absurd rfl hr
  | step v => exact absurd rfl (hs v)
  | load image =>
    rw [issue, loadCommand] at h
    split at h
    case isTrue => cases h; exact loadOpen_load s image
    case isFalse => cases h
  | deliverKey v => cases h; exact loadOpen_deliverKey s v
  | tick | setKey | clearDirty =>
    cases h
    exact State.unlessHalted_induction (P := fun t => t.loadOpen = s.loadOpen) rfl rfl

/-- Settles O60: of all commands, only RESET and a STEP that the gates let through write the window. -/
theorem loadWindowLastsFromResetToTheFirstStep : Obligations.LoadWindowLastsFromResetToTheFirstStep := by
  refine fun s => ⟨⟨s.resetCommand, rfl, rfl⟩, fun hh ha v => ?_, fun hgates v => ?_, fun c t => loadOpen_of_issue⟩
  · have hg := State.gated_eq_false hh ha
    obtain ⟨t, ht⟩ := cycle_answers (s.withRnd v)
    have hstep := (stepCommand_of_not_gated hg v).trans ht
    exact ⟨t, hstep, loadOpen_of_stepCommand hg hstep⟩
  · exact ⟨s, stepCommand_of_gated (State.gated_iff.2 hgates) v, rfl⟩

end Sys2Proof.Machine
